-- ==== Sys2Proof/Word.lean ====
section
/-! DEFINITION. The widths of 00_scope.md R11 and R13 under their names. -/

namespace Sys2Proof

/-- A command word as it stands on the command port (R75): a value, so it has no byte order. -/
abbrev CmdWord := BitVec 64

/-- One byte of a bus transaction (R52, R53). -/
abbrev Byte := BitVec 8

/-- A 16-bit device register value, and every 16-bit operand (`W_RAW`, `W_MA`, `W_IMM`, `W_CAL`). -/
abbrev Word16 := BitVec 16

/-- A 32-bit operand, coefficient or result (`W_SHUNT`, `W_CLSB`, `W_PLSB`, `W_RES`). -/
abbrev Word32 := BitVec 32

/-- A 7-bit bus address (`W_ADDR`). -/
abbrev BusAddr := BitVec 7

/-- The 2-bit unit field of a command (`W_UNIT`). -/
abbrev UnitId := BitVec 2

/-- The 4-bit operating mode (`W_MODE`): bits [2:0] are the mode code, bit 3 is stored as given (R25). -/
abbrev ModeBits := BitVec 4

end Sys2Proof
end

