-- ==== Sys2Proof/Syntax.lean ====
section
/-! DEFINITION. The 22 commands (30_encoding.md R78), and the seven fields of a command word (R75). -/

namespace Sys2Proof

/-- The commands, one constructor per row of the opcode table, operands in the order of the assembler
syntax (R85). Every operand has its field's width (R77), so every term is a command the encoding can
express. -/
inductive Instr where
  /-- `BEGIN unit, addr, ma, sh`: R171. -/
  | begin (unit : UnitId) (addr : BusAddr) (ma : Word16) (sh : Word32)
  /-- `DERIVE ma, sh`: R101. -/
  | derive (ma : Word16) (sh : Word32)
  /-- `SCALE_BUS raw`: R117. -/
  | scaleBus (raw : Word16)
  /-- `SCALE_SHUNT raw`: R119. -/
  | scaleShunt (raw : Word16)
  /-- `SCALE_CUR unit, raw`: R121. -/
  | scaleCur (unit : UnitId) (raw : Word16)
  /-- `SCALE_PWR unit, raw`: R123. -/
  | scalePwr (unit : UnitId) (raw : Word16)
  /-- `SET_MODE unit, mode`: R131. -/
  | setMode (unit : UnitId) (mode : Word16)
  /-- `SET_AVG unit, count`: R136. -/
  | setAvg (unit : UnitId) (count : Word16)
  /-- `SET_BUS_CT unit, code`: R140. -/
  | setBusCt (unit : UnitId) (code : Word16)
  /-- `SET_SHUNT_CT unit, code`: R142. -/
  | setShuntCt (unit : UnitId) (code : Word16)
  /-- `RESET unit`: R144. -/
  | reset (unit : UnitId)
  /-- `WAIT_CONV unit`: R147. -/
  | waitConv (unit : UnitId)
  /-- `SET_ALERT_CNVR unit, enabled`: R150. -/
  | setAlertCnvr (unit : UnitId) (enabled : Bool)
  /-- `GET_BUS_MV unit, wait`: R156. -/
  | getBusMv (unit : UnitId) (wait : Bool)
  /-- `GET_SHUNT_UV unit, wait`: R158. -/
  | getShuntUv (unit : UnitId) (wait : Bool)
  /-- `GET_CUR_UA unit`: R162. -/
  | getCurUa (unit : UnitId)
  /-- `GET_PWR_UW unit`: R164. -/
  | getPwrUw (unit : UnitId)
  /-- `GET_ADDR unit`: R176. -/
  | getAddr (unit : UnitId)
  /-- `GET_CAL unit`: R177. -/
  | getCal (unit : UnitId)
  /-- `GET_CLSB unit`: R178. -/
  | getClsb (unit : UnitId)
  /-- `GET_PLSB unit`: R179. -/
  | getPlsb (unit : UnitId)
  /-- `GET_MODE unit`: R180. -/
  | getMode (unit : UnitId)
deriving DecidableEq, Repr

/-- The seven fields of a command word, most significant first (R75). -/
structure Fields where
  /-- Bits 63:59. -/
  op : BitVec 5
  /-- Bit 58. -/
  f : BitVec 1
  /-- Bits 57:56. -/
  unit : UnitId
  /-- Bits 55:49. -/
  addr : BusAddr
  /-- Bit 48. -/
  z : BitVec 1
  /-- Bits 47:32. -/
  imm16 : Word16
  /-- Bits 31:0. -/
  imm32 : Word32
deriving DecidableEq, Repr

/-- The six formats of R76. -/
inductive Format where
  | s | d | r | ui | uf | u
deriving DecidableEq, Repr

/-- The fields a format may leave unused (R76). -/
inductive FieldName where
  | f | unit | addr | z | imm16 | imm32
deriving DecidableEq, Repr

end Sys2Proof
end

