-- ==== Sys2Proof/WellFormed.lean ====
section
/-! DEFINITION. Which field contents form a command: the formats of 30_encoding.md R76 and the illegal
encodings of R82. Written from the format table; the decoder is written from the match and mask table of
R78, and that the two agree is a statement of its own. -/

namespace Sys2Proof

/-- The format of an opcode; `none` for 0x00 and 0x17 to 0x1F, which R82 (a) calls illegal. -/
def formatOf (op : BitVec 5) : Option Format :=
  match op.toNat with
  | 0x01 => some .s
  | 0x02 => some .d
  | 0x03 | 0x04 => some .r
  | 0x05 | 0x06 | 0x07 | 0x08 | 0x09 | 0x0A => some .ui
  | 0x0B | 0x0C => some .u
  | 0x0D | 0x0E | 0x0F => some .uf
  | 0x10 | 0x11 | 0x12 | 0x13 | 0x14 | 0x15 | 0x16 => some .u
  | _ => none

/-- The column "fields that must be 0" of R76. -/
def Format.unused : Format → List FieldName
  | .s => [.f, .z]
  | .d => [.f, .unit, .addr, .z]
  | .r => [.f, .unit, .addr, .z, .imm32]
  | .ui => [.f, .addr, .z, .imm32]
  | .uf => [.addr, .z, .imm16, .imm32]
  | .u => [.f, .addr, .z, .imm16, .imm32]

/-- Whether a named field is zero. -/
def Fields.isZero (x : Fields) : FieldName → Bool
  | .f => x.f == 0
  | .unit => x.unit == 0
  | .addr => x.addr == 0
  | .z => x.z == 0
  | .imm16 => x.imm16 == 0
  | .imm32 => x.imm32 == 0

/-- Why field contents are no command (R82). Every reason is answered with the one status
`ERR_ILLEGAL`; the names are the model's (log 16). -/
inductive FormatError where
  /-- R82 (a). -/
  | unassignedOpcode (op : BitVec 5)
  /-- R82 (b): a field the format does not use is not 0. -/
  | unusedFieldSet (field : FieldName)
deriving DecidableEq, Repr

/-- The first violation of R76 and R82, or `none`. -/
def Fields.violation (x : Fields) : Option FormatError :=
  match formatOf x.op with
  | none => some (.unassignedOpcode x.op)
  | some fmt => (fmt.unused.find? fun n => !x.isZero n).map .unusedFieldSet

/-- Field contents that form a command. -/
def Fields.wellFormed (x : Fields) : Bool := x.violation.isNone

end Sys2Proof
end

