-- ==== Sys2Proof/Decode.lean ====
section
/-! DEFINITION. The decoder, from the match and mask table of 30_encoding.md R78, and after it the
encoder, from the field layout of R75. -/

namespace Sys2Proof

/-- The field extraction of R75 and R77: nothing is scaled, shifted or sign-extended. -/
def fieldsOfWord (w : CmdWord) : Fields :=
  { op := w.extractLsb' 59 5
    f := w.extractLsb' 58 1
    unit := w.extractLsb' 56 2
    addr := w.extractLsb' 49 7
    z := w.extractLsb' 48 1
    imm16 := w.extractLsb' 32 16
    imm32 := w.extractLsb' 0 32 }

/-- One row of R78: mnemonic, the two 64-bit constants, and the operands taken from the fields (R77). -/
structure OpcodeRow where
  mnemonic : String
  pattern : CmdWord
  mask : CmdWord
  build : Fields → Instr

/-- R78: a word is the command of a row exactly when `(w AND mask) = match`. -/
def OpcodeRow.isRowOf (r : OpcodeRow) (w : CmdWord) : Bool := w &&& r.mask == r.pattern

/-- R78, opcodes 0x01 to 0x0C. -/
def opcodeTableLow : List OpcodeRow :=
  [ ⟨"BEGIN", 0x0800000000000000, 0xFC01000000000000, fun x => .begin x.unit x.addr x.imm16 x.imm32⟩,
    ⟨"DERIVE", 0x1000000000000000, 0xFFFF000000000000, fun x => .derive x.imm16 x.imm32⟩,
    ⟨"SCALE_BUS", 0x1800000000000000, 0xFFFF0000FFFFFFFF, fun x => .scaleBus x.imm16⟩,
    ⟨"SCALE_SHUNT", 0x2000000000000000, 0xFFFF0000FFFFFFFF, fun x => .scaleShunt x.imm16⟩,
    ⟨"SCALE_CUR", 0x2800000000000000, 0xFCFF0000FFFFFFFF, fun x => .scaleCur x.unit x.imm16⟩,
    ⟨"SCALE_PWR", 0x3000000000000000, 0xFCFF0000FFFFFFFF, fun x => .scalePwr x.unit x.imm16⟩,
    ⟨"SET_MODE", 0x3800000000000000, 0xFCFF0000FFFFFFFF, fun x => .setMode x.unit x.imm16⟩,
    ⟨"SET_AVG", 0x4000000000000000, 0xFCFF0000FFFFFFFF, fun x => .setAvg x.unit x.imm16⟩,
    ⟨"SET_BUS_CT", 0x4800000000000000, 0xFCFF0000FFFFFFFF, fun x => .setBusCt x.unit x.imm16⟩,
    ⟨"SET_SHUNT_CT", 0x5000000000000000, 0xFCFF0000FFFFFFFF, fun x => .setShuntCt x.unit x.imm16⟩,
    ⟨"RESET", 0x5800000000000000, 0xFCFFFFFFFFFFFFFF, fun x => .reset x.unit⟩,
    ⟨"WAIT_CONV", 0x6000000000000000, 0xFCFFFFFFFFFFFFFF, fun x => .waitConv x.unit⟩ ]

/-- R78, opcodes 0x0D to 0x16. -/
def opcodeTableHigh : List OpcodeRow :=
  [ ⟨"SET_ALERT_CNVR", 0x6800000000000000, 0xF8FFFFFFFFFFFFFF, fun x => .setAlertCnvr x.unit (x.f == 1)⟩,
    ⟨"GET_BUS_MV", 0x7000000000000000, 0xF8FFFFFFFFFFFFFF, fun x => .getBusMv x.unit (x.f == 1)⟩,
    ⟨"GET_SHUNT_UV", 0x7800000000000000, 0xF8FFFFFFFFFFFFFF, fun x => .getShuntUv x.unit (x.f == 1)⟩,
    ⟨"GET_CUR_UA", 0x8000000000000000, 0xFCFFFFFFFFFFFFFF, fun x => .getCurUa x.unit⟩,
    ⟨"GET_PWR_UW", 0x8800000000000000, 0xFCFFFFFFFFFFFFFF, fun x => .getPwrUw x.unit⟩,
    ⟨"GET_ADDR", 0x9000000000000000, 0xFCFFFFFFFFFFFFFF, fun x => .getAddr x.unit⟩,
    ⟨"GET_CAL", 0x9800000000000000, 0xFCFFFFFFFFFFFFFF, fun x => .getCal x.unit⟩,
    ⟨"GET_CLSB", 0xA000000000000000, 0xFCFFFFFFFFFFFFFF, fun x => .getClsb x.unit⟩,
    ⟨"GET_PLSB", 0xA800000000000000, 0xFCFFFFFFFFFFFFFF, fun x => .getPlsb x.unit⟩,
    ⟨"GET_MODE", 0xB000000000000000, 0xFCFFFFFFFFFFFFFF, fun x => .getMode x.unit⟩ ]

/-- The whole table of R78. -/
def opcodeTable : List OpcodeRow := opcodeTableLow ++ opcodeTableHigh

/-- Decoding (R79): total, without state, of any 64-bit word; a word of no row is rejected, with the
violation of R82 that names why. -/
def decode (w : CmdWord) : Except FormatError Instr :=
  let x := fieldsOfWord w
  match opcodeTable.find? (fun r => r.isRowOf w) with
  | some r => .ok (r.build x)
  | none => .error (x.violation.getD (.unassignedOpcode x.op))

/-- What this decoder reads from an instruction of `nbits` bits, numbered as the opcode table numbers
them: one 64-bit word, bit 0 its least significant bit, the bits from `nbits` up zero. -/
def decodeTableWord (nbits w : Nat) : Option Instr :=
  match decode (BitVec.ofNat 64 (w % 2 ^ nbits)) with
  | .ok i => some i
  | .error _ => none

/-- The word with the given fields: their concatenation in the order of R75. -/
def Fields.toWord (x : Fields) : CmdWord :=
  x.op ++ x.f ++ x.unit ++ x.addr ++ x.z ++ x.imm16 ++ x.imm32

/-- The fields of a command: those its format uses hold its operands, the others are 0 (R76, R77). -/
def Instr.fields : Instr → Fields
  | .begin u a ma sh => ⟨0x01, 0, u, a, 0, ma, sh⟩
  | .derive ma sh => ⟨0x02, 0, 0, 0, 0, ma, sh⟩
  | .scaleBus raw => ⟨0x03, 0, 0, 0, 0, raw, 0⟩
  | .scaleShunt raw => ⟨0x04, 0, 0, 0, 0, raw, 0⟩
  | .scaleCur u raw => ⟨0x05, 0, u, 0, 0, raw, 0⟩
  | .scalePwr u raw => ⟨0x06, 0, u, 0, 0, raw, 0⟩
  | .setMode u m => ⟨0x07, 0, u, 0, 0, m, 0⟩
  | .setAvg u n => ⟨0x08, 0, u, 0, 0, n, 0⟩
  | .setBusCt u k => ⟨0x09, 0, u, 0, 0, k, 0⟩
  | .setShuntCt u k => ⟨0x0A, 0, u, 0, 0, k, 0⟩
  | .reset u => ⟨0x0B, 0, u, 0, 0, 0, 0⟩
  | .waitConv u => ⟨0x0C, 0, u, 0, 0, 0, 0⟩
  | .setAlertCnvr u e => ⟨0x0D, BitVec.ofBool e, u, 0, 0, 0, 0⟩
  | .getBusMv u f => ⟨0x0E, BitVec.ofBool f, u, 0, 0, 0, 0⟩
  | .getShuntUv u f => ⟨0x0F, BitVec.ofBool f, u, 0, 0, 0, 0⟩
  | .getCurUa u => ⟨0x10, 0, u, 0, 0, 0, 0⟩
  | .getPwrUw u => ⟨0x11, 0, u, 0, 0, 0, 0⟩
  | .getAddr u => ⟨0x12, 0, u, 0, 0, 0, 0⟩
  | .getCal u => ⟨0x13, 0, u, 0, 0, 0, 0⟩
  | .getClsb u => ⟨0x14, 0, u, 0, 0, 0, 0⟩
  | .getPlsb u => ⟨0x15, 0, u, 0, 0, 0, 0⟩
  | .getMode u => ⟨0x16, 0, u, 0, 0, 0, 0⟩

/-- The encoder: the one word of a command (R84, R85). -/
def encode (i : Instr) : CmdWord := i.fields.toWord

/-- A command whose fields obey its format (R76). Every command does, because its operands have the
widths of their fields. -/
def Instr.wellFormed (i : Instr) : Bool := i.fields.wellFormed

/-- The mnemonic of a command, as R78 spells it. -/
def Instr.mnemonic : Instr → String
  | .begin _ _ _ _ => "BEGIN"
  | .derive _ _ => "DERIVE"
  | .scaleBus _ => "SCALE_BUS"
  | .scaleShunt _ => "SCALE_SHUNT"
  | .scaleCur _ _ => "SCALE_CUR"
  | .scalePwr _ _ => "SCALE_PWR"
  | .setMode _ _ => "SET_MODE"
  | .setAvg _ _ => "SET_AVG"
  | .setBusCt _ _ => "SET_BUS_CT"
  | .setShuntCt _ _ => "SET_SHUNT_CT"
  | .reset _ => "RESET"
  | .waitConv _ => "WAIT_CONV"
  | .setAlertCnvr _ _ => "SET_ALERT_CNVR"
  | .getBusMv _ _ => "GET_BUS_MV"
  | .getShuntUv _ _ => "GET_SHUNT_UV"
  | .getCurUa _ => "GET_CUR_UA"
  | .getPwrUw _ => "GET_PWR_UW"
  | .getAddr _ => "GET_ADDR"
  | .getCal _ => "GET_CAL"
  | .getClsb _ => "GET_CLSB"
  | .getPlsb _ => "GET_PLSB"
  | .getMode _ => "GET_MODE"

end Sys2Proof
end

