-- ==== Sys2Proof/Config.lean ====
section
/-! DEFINITION. What an implementation fixes (00_scope.md R11) and the values the spec leaves free. -/

namespace Sys2Proof.Config

/-- The OPEN parameters of R11 that a rule reads. They stand in `State` as data, so that every
statement ranges over all of them (log 2). -/
structure Params where
  /-- `CONFIG_DEFAULT`: what `CONFIG` must read after a device reset for setup to succeed (D24). -/
  configDefault : Word16
  /-- `CVRF_BIT`: the conversion-ready flag's bit number in register 6 (D25). -/
  cvrfBit : Fin 16
  /-- `CNVR_BIT`: the alert-on-conversion enable's bit number in register 6 (D25). -/
  cnvrBit : Fin 16
deriving DecidableEq, Repr

/-- The two constraints R11 puts on the parameters: `CONFIG_DEFAULT[2:0] = 0b111`, and `CNVR_BIT`
differs from `CVRF_BIT`. -/
def Params.valid (p : Params) : Bool :=
  p.configDefault.extractLsb' 0 3 == 0b111#3 && p.cnvrBit != p.cvrfBit

/-- The values R11 suggests, themselves from general knowledge (G1, G2). PRESUMED, unsafe for a
statement about the reset state alone: log 2. -/
def Params.suggested : Params :=
  { configDefault := 0x4127#16, cvrfBit := 3, cnvrBit := 10 }

/-- `N_UNITS` of the machine at reset: 3 (R11, D4). In a general state the registry's length takes its
place, so that 1 to 4 are all covered (log 3). -/
def nUnits : Nat := 3

/-- `RESET_DELAY` (R11, D26): opaque, and no rule depends on it (R58, R235; log 18). -/
opaque resetDelay : Nat

/-- FREE VALUE. The word the environment answers to the `RegRead` that is draw number `n`, where no
answer was supplied with the state: any word (R57, R60). DESIGN CHOICE, safe: log 4. -/
opaque freeWord : Nat → Word16

/-- FREE VALUE. Whether a device acknowledges the `Probe` that is draw number `n`, where no answer was
supplied (R54, D29). DESIGN CHOICE, safe: log 4. -/
opaque freeAck : Nat → Bool

/-- FREE VALUE. Whether the transport's status at draw `n` reports an acknowledge (R44, U12). Safe: log 5. -/
opaque freeStatusAck : Nat → Bool

/-- FREE VALUE. The rest of the transport's status at draw `n`, an uninterpreted code (R44, U12).
Safe: log 5. -/
opaque freeStatusCode : Nat → Nat

end Sys2Proof.Config
end

