-- ==== Sys2Proof/Machine/State.lean ====
section
/-! DEFINITION. The state of the block and of its three ports, as plain data, and the state after reset. -/

namespace Sys2Proof.Machine

/-- The seven registers of a device by name (R17). The block never issues another number (R32). -/
inductive Reg where
  | config | shuntV | busV | power | current | calib | maskEn
deriving DecidableEq, Repr

/-- One record of the registry (R20): exactly the five fields of R21 to R25. -/
structure DeviceRecord where
  /-- R21. -/
  busAddress : BusAddr
  /-- R22: nanoamps per raw count. -/
  currentLsb : Word32
  /-- R23: the copy of what was written to `CALIB`. -/
  calibration : Word16
  /-- R24. -/
  powerLsb : Word32
  /-- R25: the mode cache. -/
  operatingMode : ModeBits
deriving DecidableEq, Repr

/-- A record as reset leaves it (R45). -/
def DeviceRecord.zero : DeviceRecord :=
  { busAddress := 0, currentLsb := 0, calibration := 0, powerLsb := 0, operatingMode := 0 }

/-- The transport's end-of-transaction status (R44). No source defines its type: the model keeps the one
thing a rule reads of it, whether a device acknowledged (R54), and an uninterpreted code. DESIGN CHOICE:
log 5. -/
structure BusStatus where
  acked : Bool
  code : Nat
deriving DecidableEq, Repr

/-- The bus-master calls, as the bus trace records them (R68). -/
inductive BusEvent where
  /-- `P(a) -> b`. -/
  | probe (a : BusAddr) (acked : Bool)
  /-- `R(a, r) -> w`. -/
  | read (a : BusAddr) (r : Reg) (w : Word16)
  /-- `W(a, r, v)`. -/
  | write (a : BusAddr) (r : Reg) (v : Word16)
  /-- `D`. -/
  | delay
deriving DecidableEq, Repr

/-- The status of a response (R80). -/
inductive Status where
  | ok | errIllegal | errUnit | errDiv0
deriving DecidableEq, Repr

/-- A response (R80). -/
structure Response where
  status : Status
  res0 : Word32
  res1 : Word32
  res2 : Word16
deriving DecidableEq, Repr

/-- What a polling command does once the ready bit was seen: R147, R156, R158. -/
inductive AfterWait where
  | waitConv
  | getBusMv (unit : UnitId)
  | getShuntUv (unit : UnitId)
deriving DecidableEq, Repr

/-- The command in progress (R45, R148). The address is read from the registry once, before the loop
(R147), so it stands here. DEDUCED, safe: log 8. -/
inductive Activity where
  | idle
  | polling (a : BusAddr) (next : AfterWait)
deriving DecidableEq, Repr

/-- The environment's answers still to come (R60, R68): `reads` to the coming `RegRead`s and `probes` to
the coming `Probe`s, each in order; `draws` numbers the free values that stand in where none is supplied.
The MODEL's own field: log 4. -/
structure Env where
  reads : List Word16
  probes : List Bool
  draws : Nat
deriving DecidableEq, Repr

/-- The hardware reset signal during one step (R210, R211), in the form the model gives it: log 11. -/
inductive ResetSignal where
  /-- Not asserted. -/
  | low
  /-- Asserted before the step: between two commands, between two polls, or while no word is presented. -/
  | before
  /-- Asserted while the command of the step runs, when it has made this many of its bus-master calls, or
  all it makes where they are fewer; always before its response. -/
  | inside (calls : Nat)
deriving DecidableEq, Repr

/-- The machine. -/
structure State where
  /-- R11, fixed for one machine: no step changes it. -/
  params : Config.Params
  /-- R20: the registry; `N_UNITS` is its length (log 3). -/
  dev : List DeviceRecord
  /-- R44. -/
  busStatus : BusStatus
  /-- R45: the command in progress. -/
  activity : Activity
  /-- R8 (a): the command words the host still presents, first to last. -/
  commands : List CmdWord
  /-- R8 (b), R10 (a): the responses given, oldest first. -/
  responses : List Response
  /-- R10 (b), R68: the bus trace, oldest first. -/
  trace : List BusEvent
  /-- R9: the environment. -/
  env : Env
  /-- R211: the reset signal during each coming step; low from the end of the list on. The MODEL's own
  field: log 11. -/
  resetLine : List ResetSignal
deriving DecidableEq, Repr

/-- Why a step would stop the machine. There is no constructor: the three faults of the spec end a
COMMAND with a response, after which the sequencer takes the next one (R194, R195), and the wait that
never ends keeps stepping (R198), so no step stops. Safe: log 1. -/
inductive Fault where
deriving DecidableEq, Repr

/-- Why a step would be refused. -/
inductive Refusal where
  /-- An arm of `exec` without a meaning; no arm raises it, for "no command of this block" is refused
  (R198). Safe. -/
  | notModelled (mnemonic : String)
deriving DecidableEq, Repr

/-- What a command or a step answers. -/
abbrev Result := Host.Outcome State Fault Refusal

/-- The machine right after reset (R45, R210): every field of every record 0, the sequencer idle, no bus
event made, no word presented. The parameters are those R11 suggests (log 2), three records (log 3);
`busStatus` is unspecified by R45 and named here (log 5). -/
def State.reset : State :=
  { params := Config.Params.suggested
    dev := List.replicate Config.nUnits DeviceRecord.zero
    busStatus := { acked := false, code := 0 }
    activity := .idle
    commands := []
    responses := []
    trace := []
    env := { reads := [], probes := [], draws := 0 }
    resetLine := [] }

end Sys2Proof.Machine
end

