-- ==== Sys2Proof/Machine/Ops.lean ====
section
/-! DEFINITION. The named operations every command is written over: the four bus-master primitives
(20_memory.md R52 to R58), the response and the fault (R80, R194), the registry write, the
read-modify-write (R130), and hardware reset (R210, R211). -/

namespace Sys2Proof.Machine

/-- `N_UNITS` (R11, R20). -/
def State.nUnits (s : State) : Nat := s.dev.length

/-- The word the environment answers to the next `RegRead` (R60): the next one supplied, else a free
value. -/
def State.readAnswer (s : State) : Word16 :=
  s.env.reads.headD (Config.freeWord s.env.draws)

/-- Whether the environment acknowledges the next `Probe` (R54). -/
def State.probeAnswer (s : State) : Bool :=
  s.env.probes.headD (Config.freeAck s.env.draws)

/-- The status the transport returns at the end of the next transaction (R44, R57): a free value. -/
def State.transportStatus (s : State) : BusStatus :=
  { acked := Config.freeStatusAck s.env.draws, code := Config.freeStatusCode s.env.draws }

/-- The state after `RegRead(a, r)` (R52); the word it returned is `s.readAnswer`. -/
def regRead (a : BusAddr) (r : Reg) (s : State) : State :=
  { s with
    busStatus := s.transportStatus
    trace := s.trace ++ [.read a r s.readAnswer]
    env := { s.env with reads := s.env.reads.tail, draws := s.env.draws + 1 } }

/-- The state after `RegWrite(a, r, v)` (R53). The status is latched and ignored (R57). -/
def regWrite (a : BusAddr) (r : Reg) (v : Word16) (s : State) : State :=
  { s with
    busStatus := s.transportStatus
    trace := s.trace ++ [.write a r v]
    env := { s.env with draws := s.env.draws + 1 } }

/-- The state after `Probe(a)` (R54); the boolean it returned is `s.probeAnswer`, which the latched
status reports. -/
def probe (a : BusAddr) (s : State) : State :=
  { s with
    busStatus := { s.transportStatus with acked := s.probeAnswer }
    trace := s.trace ++ [.probe a s.probeAnswer]
    env := { s.env with probes := s.env.probes.tail, draws := s.env.draws + 1 } }

/-- The state after `Delay()` (R58): one event, nothing else. -/
def delay (s : State) : State := { s with trace := s.trace ++ [.delay] }

/-- The end of a command: its response is given and the sequencer is idle (R9, R80). -/
def respond (r : Response) (s : State) : State :=
  { s with responses := s.responses ++ [r], activity := .idle }

/-- `return ()` (R16): status OK, every result field 0. -/
def done (s : State) : State := respond { status := .ok, res0 := 0, res1 := 0, res2 := 0 } s

/-- `return (res0 = v)` (R16). -/
def done0 (v : Word32) (s : State) : State :=
  respond { status := .ok, res0 := v, res1 := 0, res2 := 0 } s

/-- `raise E` (R16, R194), the block's taking of an exception: the command ends at once with status E and
zero results; no registry write, no bus call, nothing saved, nothing vectored. There is nothing to return
from (R195): the sequencer is idle again, and that is the whole of the return. -/
def raise (e : Status) (s : State) : State :=
  respond { status := e, res0 := 0, res1 := 0, res2 := 0 } s

/-- The command in progress goes on waiting (R148): no response yet. -/
def keepPolling (a : BusAddr) (next : AfterWait) (s : State) : State :=
  { s with activity := .polling a next }

/-- `dev[u] <- d` (R16). -/
def setDev (u : UnitId) (d : DeviceRecord) (s : State) : State :=
  { s with dev := s.dev.set u.toNat d }

/-- The word `Rmw` writes back (R130): `(c AND NOT clear) OR set`. -/
def rmwWord (clear set c : Word16) : Word16 := (c &&& ~~~clear) ||| set

/-- `Rmw(a, r, clear, set)` (R130): one read, then always one write. Two transactions, not atomic
(R62). -/
def rmw (a : BusAddr) (r : Reg) (clear set : Word16) (s : State) : State :=
  regWrite a r (rmwWord clear set s.readAnswer) (regRead a r s)

/-- The next command word and the state in which the sequencer has taken it (R9, R75). -/
def takeCommand (s : State) : Option (CmdWord × State) :=
  match s.commands with
  | [] => none
  | w :: rest => some (w, { s with commands := rest })

/-- The hardware reset signal during the coming step (R211, log 11). -/
def State.resetSignal (s : State) : ResetSignal := s.resetLine.headD .low

/-- The state with the reset signal of the coming step taken in. -/
def nextSignal (s : State) : State := { s with resetLine := s.resetLine.tail }

/-- Hardware reset (R210): every field of every record 0, the command in progress abandoned with no
response (R211), `bus_status` left unspecified (a free value: log 6), no bus event. What stands outside
the block (its parameters, the host's words, the environment, what was observed so far, the reset line)
stays. -/
def hardReset (s : State) : State :=
  { s with
    dev := s.dev.map fun _ => DeviceRecord.zero
    busStatus := s.transportStatus
    activity := .idle
    env := { s.env with draws := s.env.draws + 1 } }

/-- How many of these calls were answered from `Env.reads`. -/
def readCount (es : List BusEvent) : Nat :=
  es.countP fun
    | .read _ _ _ => true
    | _ => false

/-- How many of these calls were answered from `Env.probes`. -/
def probeCount (es : List BusEvent) : Nat :=
  es.countP fun
    | .probe _ _ => true
    | _ => false

/-- Reset inside a step that would lead from `s` to `t` (R211): the first `n` of its bus-master calls were
made (all of them, where it makes fewer), and the command is abandoned before its response. So a command
that makes no call is abandoned too, with nothing to show for it. -/
def abandonAfter (n : Nat) (s t : State) : State :=
  let made := (t.trace.drop s.trace.length).take n
  hardReset
    { s with
      commands := t.commands
      trace := s.trace ++ made
      env :=
        { reads := s.env.reads.drop (readCount made)
          probes := s.env.probes.drop (probeCount made)
          draws := t.env.draws } }

/-- Apply a function to the state of a step that goes on. -/
def mapNext (f : State → State) : Result → Result
  | .next t => .next (f t)
  | .fault r => .fault r
  | .refused r => .refused r

end Sys2Proof.Machine
end

