-- ==== Sys2Proof/Machine/Flags.lean ====
section
/-! DEFINITION. The block has no flags register and no condition codes (10_state.md R31). What stands in
their place: the bits a command tests or sets in a word it read, the mode test of the re-trigger (R159),
and the code of a response's status (R80). -/

namespace Sys2Proof.Machine

/-- `s[CVRF_BIT] = 1` (R147): the conversion-ready bit of a word read from `MASK_EN`. Nothing else of the
word is looked at (R149). -/
def conversionReady (p : Config.Params) (w : Word16) : Bool := w.getLsbD p.cvrfBit.val

/-- `b <- 1 << CNVR_BIT` (R150). -/
def alertBit (p : Config.Params) : Word16 := 1#16 <<< p.cnvrBit.val

/-- `m[2] = 0 and m[1] = 1` (R156): triggered, and the bus voltage is converted. Bit 3 does not enter
(R159). -/
def retriggersBus (m : ModeBits) : Bool := !m.getLsbD 2 && m.getLsbD 1

/-- `m[2] = 0 and m[0] = 1` (R158): triggered, and the shunt voltage is converted. -/
def retriggersShunt (m : ModeBits) : Bool := !m.getLsbD 2 && m.getLsbD 0

/-- The number of a status on the response port (R80). -/
def Status.code : Status → BitVec 2
  | .ok => 0
  | .errIllegal => 1
  | .errUnit => 2
  | .errDiv0 => 3

end Sys2Proof.Machine
end

