-- ==== Sys2Proof/Machine/Operands.lean ====
section
/-! DEFINITION. What the commands do with their operands: the unit lookup (R191), the fields and masks of
`CONFIG` (R33), the mode mask (R131), the averaging index (R137), the clamp (R140). -/

namespace Sys2Proof.Machine

/-- The opening line of every command that uses `unit` (R191): `if unit >= N_UNITS then raise ERR_UNIT`,
and else the record. -/
def withUnit (u : UnitId) (s : State) (k : DeviceRecord → State) : State :=
  match s.dev[u.toNat]? with
  | none => raise .errUnit s
  | some d => k d

/-- `m <- imm16 AND 0x000F` (R131). -/
def modeOperand (imm : Word16) : Word16 := imm &&& 0x000F#16

/-- `m[3:0]` (R131). -/
def modeCache (imm : Word16) : ModeBits := (modeOperand imm).extractLsb' 0 4

/-- `AvgIndex(count)` (R137): compared from the highest tier down; a count of 0 falls to the last arm
(R138). -/
def avgIndex (count : Word16) : Word16 :=
  if count.toNat ≥ 1024 then 7
  else if count.toNat ≥ 512 then 6
  else if count.toNat ≥ 256 then 5
  else if count.toNat ≥ 128 then 4
  else if count.toNat ≥ 64 then 3
  else if count.toNat ≥ 16 then 2
  else if count.toNat ≥ 4 then 1
  else 0

/-- The samples averaged at each index (R35). -/
def avgSamples (index : Fin 8) : Nat :=
  match index with
  | 0 => 1
  | 1 => 4
  | 2 => 16
  | 3 => 64
  | 4 => 128
  | 5 => 256
  | 6 => 512
  | 7 => 1024

/-- `if imm16 > 7 then 7 else imm16` (R140, R142): a saturation, not a mask. -/
def clampCode (code : Word16) : Word16 := if code.toNat > 7 then 7 else code

/-- The mode bits, `CONFIG[2:0]` (R33). -/
def modeMask : Word16 := 0x0007#16

/-- The averaging field, `CONFIG[11:9]` (R136). -/
def avgMask : Word16 := 0x0E00#16

/-- The bus conversion-time field, `CONFIG[8:6]` (R140). -/
def busCtMask : Word16 := 0x01C0#16

/-- The shunt conversion-time field, `CONFIG[5:3]` (R142). -/
def shuntCtMask : Word16 := 0x0038#16

/-- The reset word: bit 15 alone (R144). -/
def resetWord : Word16 := 0x8000#16

/-- `CONFIG[2:0]` (R34). -/
def configMode (c : Word16) : BitVec 3 := c.extractLsb' 0 3

/-- `CONFIG[5:3]` (R36). -/
def configShuntCt (c : Word16) : BitVec 3 := c.extractLsb' 3 3

/-- `CONFIG[8:6]` (R36). -/
def configBusCt (c : Word16) : BitVec 3 := c.extractLsb' 6 3

/-- `CONFIG[11:9]` (R35). -/
def configAvg (c : Word16) : BitVec 3 := c.extractLsb' 9 3

/-- `CONFIG[15:12]`: the reset bit and the three bits no source describes (R33). -/
def configHigh (c : Word16) : BitVec 4 := c.extractLsb' 12 4

end Sys2Proof.Machine
end

