-- ==== Sys2Proof/Machine/Scaling.lean ====
section
/-! DEFINITION. The four fixed-point scalers (41_scaling.md) and the commands that expose them. The product
is formed in full and divided once, truncating toward zero (R14, R115). -/

namespace Sys2Proof.Machine

/-- `ScaleBus(raw)` (R115): raw unsigned, millivolts. -/
def scaleBus (raw : Word16) : Nat := raw.toNat * 125 / 100

/-- `ScaleShunt(raw)` (R115): raw two's complement, microvolts. -/
def scaleShunt (raw : Word16) : Int := (raw.toInt * 25).tdiv 10

/-- `ScaleCur(raw, clsb)` (R115): raw two's complement, microamps. -/
def scaleCur (raw : Word16) (clsb : Word32) : Int := (raw.toInt * (clsb.toNat : Int)).tdiv 1000

/-- `ScalePwr(raw, plsb)` (R115): raw unsigned, microwatts. `power_lsb` as stored, not recomputed
(R124). -/
def scalePwr (raw : Word16) (plsb : Word32) : Nat := raw.toNat * plsb.toNat / 1000

/-- `zext_32` of an unsigned result (R15). A result fits by R116; in a state outside R46 the low 32 bits
are kept (DESIGN CHOICE: log 12). -/
def asU32 (v : Nat) : Word32 := BitVec.ofNat 32 v

/-- `as_s32` of a signed result (R15), its two's complement pattern; the same note holds (log 12). -/
def asS32 (v : Int) : Word32 := BitVec.ofInt 32 v

/-- `SCALE_BUS raw` (R117). -/
def execScaleBus (raw : Word16) (s : State) : Result := .next (done0 (asU32 (scaleBus raw)) s)

/-- `SCALE_SHUNT raw` (R119). -/
def execScaleShunt (raw : Word16) (s : State) : Result := .next (done0 (asS32 (scaleShunt raw)) s)

/-- `SCALE_CUR unit, raw` (R121). -/
def execScaleCur (u : UnitId) (raw : Word16) (s : State) : Result :=
  .next <| withUnit u s fun d => done0 (asS32 (scaleCur raw d.currentLsb)) s

/-- `SCALE_PWR unit, raw` (R123). -/
def execScalePwr (u : UnitId) (raw : Word16) (s : State) : Result :=
  .next <| withUnit u s fun d => done0 (asU32 (scalePwr raw d.powerLsb)) s

end Sys2Proof.Machine
end

