-- ==== Sys2Proof/Machine/Polling.lean ====
section
/-! DEFINITION. The conversion-ready polling loop (42_mode_timing.md R147 to R149), one iteration at a
time, and what the commands that wait do when it ends (43_read_ops.md R156, R158). -/

namespace Sys2Proof.Machine

/-- `Retrigger(a)` (R160): `CONFIG` read and written back, all sixteen bits. -/
def retrigger (a : BusAddr) (s : State) : State := rmw a .config 0x0000 0x0000 s

/-- `GET_BUS_MV` after its wait (R156): the data read, the scaling, then the re-trigger where the cached
mode asks for one. A command in progress always names a record (log 13). -/
def finishGetBusMv (a : BusAddr) (u : UnitId) (s : State) : State :=
  withUnit u s fun d =>
    let mv := scaleBus s.readAnswer
    let s1 := regRead a .busV s
    done0 (asU32 mv) (if retriggersBus d.operatingMode then retrigger a s1 else s1)

/-- `GET_SHUNT_UV` after its wait (R158). -/
def finishGetShuntUv (a : BusAddr) (u : UnitId) (s : State) : State :=
  withUnit u s fun d =>
    let uv := scaleShunt s.readAnswer
    let s1 := regRead a .shuntV s
    done0 (asS32 uv) (if retriggersShunt d.operatingMode then retrigger a s1 else s1)

/-- What follows the wait of each of the three commands that can wait. -/
def afterWait (a : BusAddr) (next : AfterWait) (s : State) : State :=
  match next with
  | .waitConv => done s
  | .getBusMv u => finishGetBusMv a u s
  | .getShuntUv u => finishGetShuntUv a u s

/-- One iteration of `WaitConv(a)` (R147): exactly one read of `MASK_EN`. The loop is left only on a word
that shows the ready bit (R148); otherwise the command stays in progress. -/
def pollOnce (a : BusAddr) (next : AfterWait) (s : State) : State :=
  let s1 := regRead a .maskEn s
  if conversionReady s.params s.readAnswer then afterWait a next s1
  else keepPolling a next s1

end Sys2Proof.Machine
end

