-- ==== Sys2Proof/Machine/ModeTiming.lean ====
section
/-! DEFINITION. The mode, averaging and conversion-timing register state machine (42_mode_timing.md). -/

namespace Sys2Proof.Machine

/-- `SET_MODE unit, mode` (R131). The cache is updated after the write, whatever became of the write
(R57). -/
def execSetMode (u : UnitId) (mode : Word16) (s : State) : Result :=
  .next <| withUnit u s fun d =>
    done <| setDev u { d with operatingMode := modeCache mode } <|
      rmw d.busAddress .config modeMask (modeOperand mode) s

/-- `SET_AVG unit, count` (R136). -/
def execSetAvg (u : UnitId) (count : Word16) (s : State) : Result :=
  .next <| withUnit u s fun d =>
    done <| rmw d.busAddress .config avgMask (avgIndex count <<< 9) s

/-- `SET_BUS_CT unit, code` (R140). -/
def execSetBusCt (u : UnitId) (code : Word16) (s : State) : Result :=
  .next <| withUnit u s fun d =>
    done <| rmw d.busAddress .config busCtMask (clampCode code <<< 6) s

/-- `SET_SHUNT_CT unit, code` (R142). -/
def execSetShuntCt (u : UnitId) (code : Word16) (s : State) : Result :=
  .next <| withUnit u s fun d =>
    done <| rmw d.busAddress .config shuntCtMask (clampCode code <<< 3) s

/-- `RESET unit` (R144): the device's reset. No read first, the registry untouched. -/
def execReset (u : UnitId) (s : State) : Result :=
  .next <| withUnit u s fun d => done <| delay <| regWrite d.busAddress .config resetWord s

/-- `WAIT_CONV unit` (R147): the first poll; the later ones are steps of their own (R148, log 8). -/
def execWaitConv (u : UnitId) (s : State) : Result :=
  .next <| withUnit u s fun d => pollOnce d.busAddress .waitConv s

/-- `SET_ALERT_CNVR unit, enabled` (R150). -/
def execSetAlertCnvr (u : UnitId) (enabled : Bool) (s : State) : Result :=
  .next <| withUnit u s fun d =>
    done <|
      if enabled then rmw d.busAddress .maskEn 0x0000 (alertBit s.params) s
      else rmw d.busAddress .maskEn (alertBit s.params) 0x0000 s

end Sys2Proof.Machine
end

