-- ==== Sys2Proof/Machine/ReadOps.lean ====
section
/-! DEFINITION. The read operations (43_read_ops.md). -/

namespace Sys2Proof.Machine

/-- `GET_BUS_MV unit, wait` (R156): with the wait flag, the first poll comes first. -/
def execGetBusMv (u : UnitId) (wait : Bool) (s : State) : Result :=
  .next <| withUnit u s fun d =>
    if wait then pollOnce d.busAddress (.getBusMv u) s else finishGetBusMv d.busAddress u s

/-- `GET_SHUNT_UV unit, wait` (R158). -/
def execGetShuntUv (u : UnitId) (wait : Bool) (s : State) : Result :=
  .next <| withUnit u s fun d =>
    if wait then pollOnce d.busAddress (.getShuntUv u) s else finishGetShuntUv d.busAddress u s

/-- `GET_CUR_UA unit` (R162): one read, no wait, no re-trigger. -/
def execGetCurUa (u : UnitId) (s : State) : Result :=
  .next <| withUnit u s fun d =>
    done0 (asS32 (scaleCur s.readAnswer d.currentLsb)) (regRead d.busAddress .current s)

/-- `GET_PWR_UW unit` (R164). -/
def execGetPwrUw (u : UnitId) (s : State) : Result :=
  .next <| withUnit u s fun d =>
    done0 (asU32 (scalePwr s.readAnswer d.powerLsb)) (regRead d.busAddress .power s)

end Sys2Proof.Machine
end

