-- ==== Sys2Proof/Machine/Calibration.lean ====
section
/-! DEFINITION. The calibration-coefficient derivation (40_calibration.md) and the command `DERIVE`. -/

namespace Sys2Proof.Machine

/-- R100 step 1, R102: nanoamps per count. Exact integers; on non-negative operands truncation is
floor. -/
def clsbOf (ma : Word16) : Nat := ma.toNat * 1000000 / 32767

/-- R100 step 2a: the divisor D. -/
def divisorOf (ma : Word16) (sh : Word32) : Nat := clsbOf ma * sh.toNat / 100000

/-- R100 step 2b: the calibration quotient q, unbounded. -/
def quotientOf (ma : Word16) (sh : Word32) : Nat := 51200000 / divisorOf ma sh

/-- R100 step 3, R105: from the truncated `clsb`. -/
def plsbOf (ma : Word16) : Nat := clsbOf ma * 25

/-- The triple `Derive` results in (R100), in the widths it is stored in (R22 to R24). -/
structure Coefficients where
  clsb : Word32
  cal : Word16
  plsb : Word32
deriving DecidableEq, Repr

/-- `Derive(ma, sh)` (R100): `none` is DIV0 (R109). `cal` keeps the low 16 bits of q (R108). -/
def deriveCoefficients (ma : Word16) (sh : Word32) : Option Coefficients :=
  if divisorOf ma sh = 0 then none
  else
    some
      { clsb := BitVec.ofNat 32 (clsbOf ma)
        cal := BitVec.ofNat 16 (quotientOf ma sh)
        plsb := BitVec.ofNat 32 (plsbOf ma) }

/-- `DERIVE ma, sh` (R101). -/
def execDerive (ma : Word16) (sh : Word32) (s : State) : Result :=
  .next <|
    match deriveCoefficients ma sh with
    | none => raise .errDiv0 s
    | some c => respond { status := .ok, res0 := c.clsb, res1 := c.plsb, res2 := c.cal } s

end Sys2Proof.Machine
end

