-- ==== Sys2Proof/Machine/Setup.lean ====
section
/-! DEFINITION. Setup and the accessors (44_setup_accessors.md). -/

namespace Sys2Proof.Machine

/-- The record `BEGIN` stores on its success path (R171): the mode is the constant 0b0111 (R174 c). -/
def populatedRecord (addr : BusAddr) (c : Coefficients) : DeviceRecord :=
  { busAddress := addr, currentLsb := c.clsb, calibration := c.cal, powerLsb := c.plsb
    operatingMode := 0b0111#4 }

/-- `BEGIN` once the reset write and the delay are made (R171): verification on all sixteen bits (R172),
and on success the registry first, then the `CALIB` write (R174 f). -/
def verifyAndPopulate (u : UnitId) (addr : BusAddr) (c : Coefficients) (s : State) : State :=
  let s1 := regRead addr .config s
  if s.readAnswer = s.params.configDefault then
    done <| regWrite addr .calib c.cal <| setDev u (populatedRecord addr c) s1
  else done s1

/-- `BEGIN` once the coefficients are derived (R171): the probe, and where it is acknowledged the reset
write, the delay and the verification; every transaction goes to the operand `addr` (R174 a). -/
def probeAndPopulate (u : UnitId) (addr : BusAddr) (c : Coefficients) (s : State) : State :=
  let s1 := probe addr s
  if s.probeAnswer then
    verifyAndPopulate u addr c <| delay <| regWrite addr .config resetWord s1
  else done s1

/-- `BEGIN unit, addr, ma, sh` (R171): both faults before any bus event. -/
def execBegin (u : UnitId) (addr : BusAddr) (ma : Word16) (sh : Word32) (s : State) : Result :=
  .next <| withUnit u s fun _ =>
    match deriveCoefficients ma sh with
    | none => raise .errDiv0 s
    | some c => probeAndPopulate u addr c s

/-- `GET_ADDR unit` (R176). -/
def execGetAddr (u : UnitId) (s : State) : Result :=
  .next <| withUnit u s fun d => done0 (d.busAddress.setWidth 32) s

/-- `GET_CAL unit` (R177): the registry's copy, in `res2`. -/
def execGetCal (u : UnitId) (s : State) : Result :=
  .next <| withUnit u s fun d =>
    respond { status := .ok, res0 := 0, res1 := 0, res2 := d.calibration } s

/-- `GET_CLSB unit` (R178). -/
def execGetClsb (u : UnitId) (s : State) : Result :=
  .next <| withUnit u s fun d => done0 d.currentLsb s

/-- `GET_PLSB unit` (R179). -/
def execGetPlsb (u : UnitId) (s : State) : Result :=
  .next <| withUnit u s fun d => done0 d.powerLsb s

/-- `GET_MODE unit` (R180): the cache, not the device's mode. -/
def execGetMode (u : UnitId) (s : State) : Result :=
  .next <| withUnit u s fun d => done0 (d.operatingMode.setWidth 32) s

end Sys2Proof.Machine
end

