-- ==== Sys2Proof/Machine/Dispatch.lean ====
section
/-! DEFINITION. One arm per command. -/

namespace Sys2Proof.Machine

def exec (i : Instr) (s : State) : Host.Outcome State Fault Refusal :=
  match i with
  | .begin u a ma sh => Sys2Proof.Machine.execBegin u a ma sh s
  | .derive ma sh => Sys2Proof.Machine.execDerive ma sh s
  | .scaleBus raw => Sys2Proof.Machine.execScaleBus raw s
  | .scaleShunt raw => Sys2Proof.Machine.execScaleShunt raw s
  | .scaleCur u raw => Sys2Proof.Machine.execScaleCur u raw s
  | .scalePwr u raw => Sys2Proof.Machine.execScalePwr u raw s
  | .setMode u m => Sys2Proof.Machine.execSetMode u m s
  | .setAvg u n => Sys2Proof.Machine.execSetAvg u n s
  | .setBusCt u k => Sys2Proof.Machine.execSetBusCt u k s
  | .setShuntCt u k => Sys2Proof.Machine.execSetShuntCt u k s
  | .reset u => Sys2Proof.Machine.execReset u s
  | .waitConv u => Sys2Proof.Machine.execWaitConv u s
  | .setAlertCnvr u e => Sys2Proof.Machine.execSetAlertCnvr u e s
  | .getBusMv u f => Sys2Proof.Machine.execGetBusMv u f s
  | .getShuntUv u f => Sys2Proof.Machine.execGetShuntUv u f s
  | .getCurUa u => Sys2Proof.Machine.execGetCurUa u s
  | .getPwrUw u => Sys2Proof.Machine.execGetPwrUw u s
  | .getAddr u => Sys2Proof.Machine.execGetAddr u s
  | .getCal u => Sys2Proof.Machine.execGetCal u s
  | .getClsb u => Sys2Proof.Machine.execGetClsb u s
  | .getPlsb u => Sys2Proof.Machine.execGetPlsb u s
  | .getMode u => Sys2Proof.Machine.execGetMode u s

end Sys2Proof.Machine
end

