-- ==== Sys2Proof/Machine/Step.lean ====
section
/-! DEFINITION. One step of the machine: one command, or one poll of a command that waits, or one hardware
reset, or waiting for a command word. -/

namespace Sys2Proof.Machine

/-- A command word taken from the command port: its command runs, or it is answered `ERR_ILLEGAL` (R82,
R190). -/
def runWord (w : CmdWord) (s : State) : Result :=
  match decode w with
  | .ok i => exec i s
  | .error _ => .next (raise .errIllegal s)

/-- The sequencer's step: a command in progress polls once more (R148); else the next word is taken (R9);
with none presented the block waits (R212, log 10). -/
def advance (s : State) : Result :=
  match s.activity with
  | .polling a next => .next (pollOnce a next s)
  | .idle =>
    match takeCommand s with
    | none => .next s
    | some (w, s') => runWord w s'

/-- One step, under the hardware reset signal (R211): the sequencer's step, a reset instead of it, or a
reset inside it. -/
def step (s : State) : Host.Outcome State Fault Refusal :=
  match s.resetSignal with
  | .low => advance (nextSignal s)
  | .before => .next (hardReset (nextSignal s))
  | .inside n => mapNext (abandonAfter n (nextSignal s)) (advance (nextSignal s))

/-- `s` with the given instruction as the word the command port presents next, to a sequencer that is idle
and sees no reset, so that the very next step takes exactly it (log 10). -/
def State.withFetchWord (s : State) (nbits w : Nat) : State :=
  { s with
    activity := .idle
    resetLine := []
    commands := BitVec.ofNat 64 (w % 2 ^ nbits) :: s.commands }

end Sys2Proof.Machine
end

