-- ==== Sys2Proof/Machine/Device.lean ====
section
/-! DEFINITION. What the bus trace says of a device, under the environment assumptions of 10_state.md R38
to R43. No step reads anything of this file: the block does not model, enforce or check a device (R60).
These are the terms in which the hazards of 70_reset_and_hazards.md are stated (logs 15, 20 and 21). -/

namespace Sys2Proof.Machine

/-- The words written to `CONFIG` of the device at `a`, oldest first. -/
def configWrites (a : BusAddr) (tr : List BusEvent) : List Word16 :=
  tr.filterMap fun e =>
    match e with
    | .write a' .config v => if a' = a then some v else none
    | _ => none

/-- R38: the conversions started by configuration writes, "even with identical contents"; the write of a
device reset is one of them. DESIGN CHOICE: writes to a device in the reserved code 000 or in power-down (code
100), and writes that put it there, are counted like any other, although no source states what a device does
in either (R42, N10, U3, U15; log 20). -/
def conversionsStarted (a : BusAddr) (tr : List BusEvent) : Nat := (configWrites a tr).length

/-- The configuration word last written to the device at `a` (R27). -/
def lastConfigWritten (a : BusAddr) (tr : List BusEvent) : Option Word16 := (configWrites a tr).getLast?

/-- Whether a word written to `CONFIG` resets the device (R33, R39). -/
def resetsDevice (v : Word16) : Bool := v.getLsbD 15

/-- How one event changes what is known of `CALIB` of the device at `a`. A device reset loses it (R39:
"lost", so unknown); a read of any other register makes it unknown, because no source says that a read has no
side effect in the device (R61 e), and so does a write of `MASK_EN`, whose effect in the device is open (N9,
U16). DESIGN CHOICE: a write of `CALIB` is held as written, all sixteen bits, and a write of `CONFIG` without
the reset bit leaves it (log 21); a device in the reserved code 000 or in power-down is taken to accept a
write and a device reset like any other (log 20). -/
def calibAfter (a : BusAddr) (held : Option Word16) : BusEvent → Option Word16
  | .write a' .calib v => if a' = a then some v else held
  | .write a' .config v => if a' = a ∧ resetsDevice v = true then none else held
  | .write a' .maskEn _ => if a' = a then none else held
  | .read a' r w => if a' = a then (if r = .calib then some w else none) else held
  | _ => held

/-- What `CALIB` of the device at `a` is known to hold after a trace, where every write took effect and
nobody else wrote (R39, R43; log 15); `none` where it is not known. -/
def calibHeld (a : BusAddr) (tr : List BusEvent) : Option Word16 := tr.foldl (calibAfter a) none

/-- How one event changes what is known of `CONFIG` of the device at `a`. A device reset leaves the default
(R39); a read of it makes it known ("the value the device was just seen to hold", R27); a read of another
register makes it unknown (R61 e), and so does a write of `MASK_EN` (N9, U16). DESIGN CHOICE: a write of
`CONFIG` without the reset bit is held as written, all sixteen bits, although no source says which bits read
back as written, and none describes bits [14:12] (R33, N7, U5), and a write of `CALIB` leaves it (log 21); a
device in the reserved code 000 or in power-down is taken to accept a write and a device reset like any other
(log 20). -/
def configAfter (p : Config.Params) (a : BusAddr) (held : Option Word16) : BusEvent → Option Word16
  | .write a' .config v =>
    if a' = a then some (if resetsDevice v then p.configDefault else v) else held
  | .write a' .maskEn _ => if a' = a then none else held
  | .read a' r w => if a' = a then (if r = .config then some w else none) else held
  | _ => held

/-- What `CONFIG` of the device at `a` is known to hold after a trace, under the same hypotheses. -/
def configHeld (p : Config.Params) (a : BusAddr) (tr : List BusEvent) : Option Word16 :=
  tr.foldl (configAfter p a) none

/-- R41, R222: the device is known to scale by the calibration the record claims. It is false where the
device's calibration is not known (log 15). -/
def calibrationInStep (d : DeviceRecord) (tr : List BusEvent) : Bool :=
  calibHeld d.busAddress tr == some d.calibration

/-- R27, R223: the device's mode is known to be the cached one. It is false where the device's configuration
is not known (log 15). -/
def modeCacheInStep (p : Config.Params) (d : DeviceRecord) (tr : List BusEvent) : Bool :=
  (configHeld p d.busAddress tr).map configMode == some (d.operatingMode.extractLsb' 0 3)

/-- The seven named modes and the reserved code (R34). -/
inductive ModeName where
  | reserved | trigShunt | trigBus | trigBoth | pwrDown | contShunt | contBus | contBoth
deriving DecidableEq, Repr

/-- The names of the codes (R34, D19). -/
def modeName (code : BitVec 3) : ModeName :=
  match code.toNat with
  | 1 => .trigShunt
  | 2 => .trigBus
  | 3 => .trigBoth
  | 4 => .pwrDown
  | 5 => .contShunt
  | 6 => .contBus
  | 7 => .contBoth
  | _ => .reserved

/-- R42, R159: the modes in which one conversion follows one configuration write. -/
def ModeName.isTriggered : ModeName → Bool
  | .trigShunt | .trigBus | .trigBoth => true
  | _ => false

/-- Whether the mode converts the bus voltage (R34). -/
def ModeName.convertsBus : ModeName → Bool
  | .trigBus | .trigBoth | .contBus | .contBoth => true
  | _ => false

/-- Whether the mode converts the shunt voltage (R34). -/
def ModeName.convertsShunt : ModeName → Bool
  | .trigShunt | .trigBoth | .contShunt | .contBoth => true
  | _ => false

end Sys2Proof.Machine
end

