-- ==== Sys2Proof/Machine/Transport.lean ====
section
/-! DEFINITION. The byte-level transport operations beneath the bus-master primitives (20_memory.md R50 to
R55). One event of the bus trace stands for one transaction; here is what it asks of the transport. -/

namespace Sys2Proof.Machine

/-- The six operations the transport exposes (R50). A word is given as its two bytes in the order they
cross the bus. -/
inductive TransportOp where
  | beginTransaction (a : BusAddr)
  | writeByte (b : Byte)
  | writeWord (first second : Byte)
  /-- No command uses it (R50). -/
  | readByte (b : Byte)
  | readWord (first second : Byte)
  | endTransaction
deriving DecidableEq, Repr

/-- The register numbers (R17). -/
def Reg.number : Reg → Byte
  | .config => 0
  | .shuntV => 1
  | .busV => 2
  | .power => 3
  | .current => 4
  | .calib => 5
  | .maskEn => 6

/-- Bits [15:8], the byte that crosses the bus first (R55). -/
def firstByte (w : Word16) : Byte := w.extractLsb' 8 8

/-- Bits [7:0], the byte that crosses the bus second (R55). -/
def secondByte (w : Word16) : Byte := w.extractLsb' 0 8

/-- `{first byte, second byte}` (R52): the word assembled most significant byte first. -/
def wordOfBytes (first second : Byte) : Word16 := first ++ second

/-- The transport operations of one bus-master call, in order (R52, R53, R54). `Delay()` is not a
transaction (R58). Where a read's second phase begins and where the end falls is the transport's (log
14). -/
def BusEvent.transport : BusEvent → List TransportOp
  | .probe a _ => [.beginTransaction a, .endTransaction]
  | .read a r w =>
    [.beginTransaction a, .writeByte r.number, .readWord (firstByte w) (secondByte w), .endTransaction]
  | .write a r v =>
    [.beginTransaction a, .writeByte r.number, .writeWord (firstByte v) (secondByte v), .endTransaction]
  | .delay => []

/-- The transport operations of a bus trace: one transaction after the other (R51, R63). -/
def transportOf (tr : List BusEvent) : List TransportOp := tr.flatMap BusEvent.transport

end Sys2Proof.Machine
end

