-- ==== Sys2Proof/Safety.lean ====
section
/-! DEFINITION. The terms in which claims about runs are made: what a step adds to the ports, the
invariants of the registry, which command can end in which way. -/

namespace Sys2Proof.Machine

/-- The bus-master calls made between two states of one run. -/
def newEvents (s t : State) : List BusEvent := t.trace.drop s.trace.length

/-- The responses given between two states of one run. -/
def newResponses (s t : State) : List Response := t.responses.drop s.responses.length

/-- The unit a command uses: every command but `DERIVE`, `SCALE_BUS`, `SCALE_SHUNT` (R191). -/
def unitOf : Instr → Option UnitId
  | .derive _ _ | .scaleBus _ | .scaleShunt _ => none
  | .begin u _ _ _ | .scaleCur u _ | .scalePwr u _ | .setMode u _ | .setAvg u _ | .setBusCt u _
  | .setShuntCt u _ | .reset u | .waitConv u | .setAlertCnvr u _ | .getBusMv u _ | .getShuntUv u _
  | .getCurUa u | .getPwrUw u | .getAddr u | .getCal u | .getClsb u | .getPlsb u | .getMode u => some u

/-- A command that uses `unit` and names no record (R191). -/
def unitFault (i : Instr) (s : State) : Bool :=
  match unitOf i with
  | none => false
  | some u => decide (s.nUnits ≤ u.toNat)

/-- A command that divides by D, with D = 0 (R192). -/
def divFault : Instr → Bool
  | .derive ma sh | .begin _ _ ma sh => divisorOf ma sh == 0
  | _ => false

/-- The column "can hang" of R199. -/
def canHang : Instr → Bool
  | .waitConv _ => true
  | .getBusMv _ f | .getShuntUv _ f => f
  | _ => false

/-- The bus address every transaction of a command goes to (R21, R174 a). -/
def targetOf (i : Instr) (s : State) : Option BusAddr :=
  match i with
  | .begin _ a _ _ => some a
  | _ => (unitOf i).bind fun u => (s.dev[u.toNat]?).map DeviceRecord.busAddress

/-- The bus address of a call; `none` for `Delay()`. -/
def BusEvent.address : BusEvent → Option BusAddr
  | .probe a _ | .read a _ _ | .write a _ _ => some a
  | .delay => none

/-- A record never populated (R28, R45): everything but the mode cache is 0. -/
def DeviceRecord.unpopulated (d : DeviceRecord) : Prop :=
  d.busAddress = 0 ∧ d.currentLsb = 0 ∧ d.calibration = 0 ∧ d.powerLsb = 0

/-- R26: the three derived fields are one `Derive` result. -/
def DeviceRecord.derived (d : DeviceRecord) : Prop :=
  ∃ ma sh, deriveCoefficients ma sh = some ⟨d.currentLsb, d.calibration, d.powerLsb⟩

/-- The ranges of R46. -/
def DeviceRecord.inRange (d : DeviceRecord) : Prop :=
  d.currentLsb.toNat ≤ 2000030 ∧ d.powerLsb.toNat = 25 * d.currentLsb.toNat ∧
    d.powerLsb.toNat ≤ 50000750 ∧
    ((d.currentLsb = 0 ∧ d.calibration = 0 ∧ d.powerLsb = 0) ∨ 30 ≤ d.currentLsb.toNat)

/-- The unit of a command in progress names a record: a command waits only after its unit test (R156,
R158). -/
def Activity.unitInRange (n : Nat) : Activity → Prop
  | .idle => True
  | .polling _ .waitConv => True
  | .polling _ (.getBusMv u) | .polling _ (.getShuntUv u) => u.toNat < n

/-- The invariant of the block: legal parameters (R11), a legal number of records (R11), every record
unpopulated or holding one `Derive` result (R26), and a command in progress that names a record. -/
structure State.Inv (s : State) : Prop where
  params : s.params.valid = true
  units : 1 ≤ s.nUnits ∧ s.nUnits ≤ 4
  records : ∀ d ∈ s.dev, d.unpopulated ∨ d.derived
  waiting : s.activity.unitInRange s.nUnits

/-- Equal in everything but the latched transport status (R44). -/
def sameButBusStatus (s t : State) : Prop := { s with busStatus := t.busStatus } = t

/-- Equal in everything the block itself holds and takes in, whatever was observed before (R10, R31). -/
def sameButObservations (s t : State) : Prop :=
  { s with responses := t.responses, trace := t.trace } = t

/-- The environment's answer to a `RegRead` made after `reads` earlier reads and `calls` earlier
transactions of the same step (R60): the supplied one, else a free value. -/
def State.answerAt (s : State) (reads calls : Nat) : Word16 :=
  (s.env.reads.drop reads).headD (Config.freeWord (s.env.draws + calls))

/-- A command that began in `s` has ended in `t`, with response `r`, bus-master calls `es` and registry
`dev'`; everything else is as it was. The latched status and the draw counter move only with a call, and
their values are free. -/
structure EndsWith (s t : State) (dev' : List DeviceRecord) (r : Response) (es : List BusEvent) : Prop where
  params : t.params = s.params
  dev : t.dev = dev'
  activity : t.activity = .idle
  commands : t.commands = s.commands
  responses : t.responses = s.responses ++ [r]
  trace : t.trace = s.trace ++ es
  reads : t.env.reads = s.env.reads.drop (readCount es)
  probes : t.env.probes = s.env.probes.drop (probeCount es)
  resetLine : t.resetLine = s.resetLine
  noCall : es = [] → t.busStatus = s.busStatus ∧ t.env = s.env

/-- A command that began in `s` is waiting in `t`: it polled once, saw the word `w`, and gave no
response. -/
structure StillWaits (s t : State) (a : BusAddr) (next : AfterWait) (w : Word16) : Prop where
  params : t.params = s.params
  dev : t.dev = s.dev
  activity : t.activity = .polling a next
  commands : t.commands = s.commands
  responses : t.responses = s.responses
  trace : t.trace = s.trace ++ [.read a .maskEn w]
  reads : t.env.reads = s.env.reads.drop 1
  probes : t.env.probes = s.env.probes
  resetLine : t.resetLine = s.resetLine

/-- `q` is `p / d` truncated toward zero, for a positive `d` (R14). -/
def truncatesTo (p d q : Int) : Prop :=
  (0 ≤ p → d * q ≤ p ∧ p < d * (q + 1)) ∧ (p < 0 → d * (q - 1) < p ∧ p ≤ d * q)

/-- The response `OK` with no result (R80, R81). -/
def okResponse : Response := { status := .ok, res0 := 0, res1 := 0, res2 := 0 }

/-- The response `OK` with a value in `res0`. -/
def okRes0 (v : Word32) : Response := { status := .ok, res0 := v, res1 := 0, res2 := 0 }

/-- The response of a fault (R194). -/
def faultResponse (e : Status) : Response := { status := e, res0 := 0, res1 := 0, res2 := 0 }

/-- The encoding line of a command's rule: its opcode, as the word of the command carries it (R75), and that
opcode's format (R76). -/
def encodedAs (i : Instr) (op : BitVec 5) (fmt : Format) : Prop :=
  (fieldsOfWord (encode i)).op = op ∧ formatOf op = some fmt

/-- The column "read by" of R32. -/
def readBy : Reg → Instr → Bool
  | .config, .setMode _ _ | .config, .setAvg _ _ | .config, .setBusCt _ _ | .config, .setShuntCt _ _
  | .config, .begin _ _ _ _ | .config, .getBusMv _ _ | .config, .getShuntUv _ _ => true
  | .shuntV, .getShuntUv _ _ => true
  | .busV, .getBusMv _ _ => true
  | .power, .getPwrUw _ => true
  | .current, .getCurUa _ => true
  | .maskEn, .waitConv _ | .maskEn, .setAlertCnvr _ _ => true
  | .maskEn, .getBusMv _ f | .maskEn, .getShuntUv _ f => f
  | _, _ => false

/-- The column "written by" of R32. -/
def writtenBy : Reg → Instr → Bool
  | .config, .setMode _ _ | .config, .setAvg _ _ | .config, .setBusCt _ _ | .config, .setShuntCt _ _
  | .config, .begin _ _ _ _ | .config, .getBusMv _ _ | .config, .getShuntUv _ _
  | .config, .reset _ => true
  | .calib, .begin _ _ _ _ => true
  | .maskEn, .setAlertCnvr _ _ => true
  | _, _ => false

end Sys2Proof.Machine
end

