-- ==== Sys2Proof/Certificates/Slice0/Obligations.lean ====
section
/-! DEFINITION. The statements for the provers. Each docstring names the rules of spec/ it formalises. -/

open Sys2Proof Sys2Proof.Machine

/-! ### Encoding -/

/-- R75 to R78: the word of a command decodes to that command, every operand at every value. -/
def Obligations.EncodeThenDecodeGivesTheCommand : Prop :=
  ∀ i : Instr, decode (encode i) = .ok i

/-- R84, R85: every word that is a command is the one word of that command; no bit is ignored. -/
def Obligations.DecodeThenEncodeGivesTheWord : Prop :=
  ∀ (w : CmdWord) (i : Instr), decode w = .ok i → encode i = w

/-- R78, with its table written out: a word is the command of a row exactly when `(w AND mask) = match`. -/
def Obligations.WordIsTheCommandOfARowExactlyWhenItMatches : Prop :=
  ∀ row ∈
    ([("BEGIN", 0x0800000000000000, 0xFC01000000000000),
      ("DERIVE", 0x1000000000000000, 0xFFFF000000000000),
      ("SCALE_BUS", 0x1800000000000000, 0xFFFF0000FFFFFFFF),
      ("SCALE_SHUNT", 0x2000000000000000, 0xFFFF0000FFFFFFFF),
      ("SCALE_CUR", 0x2800000000000000, 0xFCFF0000FFFFFFFF),
      ("SCALE_PWR", 0x3000000000000000, 0xFCFF0000FFFFFFFF),
      ("SET_MODE", 0x3800000000000000, 0xFCFF0000FFFFFFFF),
      ("SET_AVG", 0x4000000000000000, 0xFCFF0000FFFFFFFF),
      ("SET_BUS_CT", 0x4800000000000000, 0xFCFF0000FFFFFFFF),
      ("SET_SHUNT_CT", 0x5000000000000000, 0xFCFF0000FFFFFFFF),
      ("RESET", 0x5800000000000000, 0xFCFFFFFFFFFFFFFF),
      ("WAIT_CONV", 0x6000000000000000, 0xFCFFFFFFFFFFFFFF),
      ("SET_ALERT_CNVR", 0x6800000000000000, 0xF8FFFFFFFFFFFFFF),
      ("GET_BUS_MV", 0x7000000000000000, 0xF8FFFFFFFFFFFFFF),
      ("GET_SHUNT_UV", 0x7800000000000000, 0xF8FFFFFFFFFFFFFF),
      ("GET_CUR_UA", 0x8000000000000000, 0xFCFFFFFFFFFFFFFF),
      ("GET_PWR_UW", 0x8800000000000000, 0xFCFFFFFFFFFFFFFF),
      ("GET_ADDR", 0x9000000000000000, 0xFCFFFFFFFFFFFFFF),
      ("GET_CAL", 0x9800000000000000, 0xFCFFFFFFFFFFFFFF),
      ("GET_CLSB", 0xA000000000000000, 0xFCFFFFFFFFFFFFFF),
      ("GET_PLSB", 0xA800000000000000, 0xFCFFFFFFFFFFFFFF),
      ("GET_MODE", 0xB000000000000000, 0xFCFFFFFFFFFFFFFF)] : List (String × CmdWord × CmdWord)),
    ∀ w : CmdWord,
      (w &&& row.2.2 = row.2.1 ↔ ∃ i, decode w = .ok i ∧ i.mnemonic = row.1)

/-- R79: every word either matches exactly one row, and is a command, or matches none, and is none. -/
def Obligations.EveryWordMatchesOneRowOrIsIllegal : Prop :=
  (opcodeTable.map OpcodeRow.mnemonic).Nodup ∧
  ∀ w : CmdWord,
    ((∃ r ∈ opcodeTable, r.isRowOf w = true ∧
        (∀ r' ∈ opcodeTable, r'.isRowOf w = true → r'.mnemonic = r.mnemonic) ∧
        ∃ i, decode w = .ok i) ∨
      ((∀ r ∈ opcodeTable, r.isRowOf w = false) ∧ ∃ e, decode w = .error e))

/-- R82, R190: the illegal words are those with an unassigned opcode or a non-zero unused field, and an
idle sequencer answers each with `ERR_ILLEGAL`, no state change and no bus call; a reset that comes while the
word is being answered leaves no response (R211; that the signal can come there is the model's choice, log
11). -/
def Obligations.IllegalWordsAreAnsweredErrIllegal : Prop :=
  (∀ w : CmdWord,
    (∃ e, decode w = .error e) ↔
      ((fieldsOfWord w).op = 0x00#5 ∨ 0x17#5 ≤ (fieldsOfWord w).op ∨
        ∃ fmt, formatOf (fieldsOfWord w).op = some fmt ∧
          ∃ n ∈ fmt.unused, (fieldsOfWord w).isZero n = false)) ∧
  ∀ (s : State) (w : CmdWord) (rest : List CmdWord) (e : FormatError),
    s.activity = .idle → s.commands = w :: rest → decode w = .error e →
      (s.resetSignal = .low →
        step s = .next { s with commands := rest
                                responses := s.responses ++ [faultResponse .errIllegal]
                                resetLine := s.resetLine.tail }) ∧
      ∀ n, s.resetSignal = .inside n →
        ∃ t, step s = .next t ∧ t.responses = s.responses ∧ t.trace = s.trace ∧ t.commands = rest ∧
          t.dev = List.replicate s.nUnits DeviceRecord.zero ∧ t.activity = .idle

/-- R86: the worked encodings, legal and illegal. -/
def Obligations.WorkedEncodingsDecodeAsTheSpecSays : Prop :=
  decode 0x08800333000186A0 = .ok (.begin 0 0x40 819 100000) ∧
  decode 0x400001F400000000 = .ok (.setAvg 0 500) ∧
  decode 0x7500000000000000 = .ok (.getBusMv 1 true) ∧
  decode 0x2000FFFF00000000 = .ok (.scaleShunt 0xFFFF) ∧
  decode 0x0000000000000000 = .error (.unassignedOpcode 0) ∧
  decode 0x5800000000000001 = .error (.unusedFieldSet .imm32)

/-! ### The sequencer and reset -/

/-- R9, R75: an idle sequencer takes the next word of the command port and runs the command it decodes to;
a reset during that command is applied to its outcome (R211; how the signal reaches a command is the model's
choice, log 11). -/
def Obligations.StepRunsTheDecodedCommand : Prop :=
  ∀ (s : State) (w : CmdWord) (rest : List CmdWord) (i : Instr),
    s.activity = .idle → s.commands = w :: rest → decode w = .ok i →
      (s.resetSignal = .low → step s = exec i { nextSignal s with commands := rest }) ∧
      ∀ n, s.resetSignal = .inside n →
        step s = mapNext (abandonAfter n (nextSignal s)) (exec i { nextSignal s with commands := rest })

/-- R212, and log 10 for the idle step as such: with no word presented the block waits, unchanged; what is
left of the reset line moves on (log 11). -/
def Obligations.IdleBlockWaitsForACommand : Prop :=
  ∀ s : State, s.resetSignal = .low → s.activity = .idle → s.commands = [] →
    step s = .next { s with resetLine := s.resetLine.tail } ∧ (s.resetLine = [] → step s = .next s)

/-- R194, R198, U13: no command and no step stops the machine; faults are responses (log 1) and the wait
keeps stepping (log 8). -/
def Obligations.EveryStepGoesOn : Prop :=
  (∀ (i : Instr) (s : State), ∃ t, exec i s = .next t) ∧ ∀ s : State, ∃ t, step s = .next t

/-- R45: every field of every record is 0, and no command is in progress. `bus_status`, which R45 leaves
unspecified, is not spoken of; the device registers are no state of the block. -/
def Obligations.ResetStateHoldsTheTabledValues : Prop :=
  0 < State.reset.nUnits ∧
  (∀ d ∈ State.reset.dev, d.busAddress = 0 ∧ d.currentLsb = 0 ∧ d.calibration = 0 ∧ d.powerLsb = 0 ∧
    d.operatingMode = 0b0000#4) ∧
  State.reset.activity = .idle

/-- R210, the signal as log 11 models it: hardware reset zeroes every field of every record, leaves the
sequencer idle, and makes no bus event; whatever command was in progress gives no response (R211). -/
def Obligations.HardwareResetZeroesTheRegistry : Prop :=
  ∀ s : State, s.resetSignal = .before →
    ∃ t, step s = .next t ∧ t.dev = List.replicate s.nUnits DeviceRecord.zero ∧ t.activity = .idle ∧
      t.trace = s.trace ∧ t.responses = s.responses ∧ t.params = s.params ∧
      t.commands = s.commands ∧ t.env.reads = s.env.reads ∧ t.env.probes = s.env.probes

/-- R211, the signal as log 11 models it: reset inside a command abandons it, before its first bus call,
between two, after the last, or where it makes none: the calls made until then and no others were made, no
response is given, the registry is zeroed. In particular every command that an idle sequencer takes is
abandoned, those without a bus call among them. -/
def Obligations.ResetInsideACommandAbandonsIt : Prop :=
  (∀ (s t : State) (n : Nat), s.resetSignal = .inside n → advance (nextSignal s) = .next t →
    ∃ t', step s = .next t' ∧ t'.trace = s.trace ++ (newEvents s t).take n ∧
      t'.responses = s.responses ∧ t'.dev = List.replicate s.nUnits DeviceRecord.zero ∧
      t'.activity = .idle ∧ t'.commands = t.commands ∧ t'.resetLine = s.resetLine.tail) ∧
  ∀ (s : State) (w : CmdWord) (rest : List CmdWord) (i : Instr) (n : Nat),
    s.resetSignal = .inside n → s.activity = .idle → s.commands = w :: rest → decode w = .ok i →
    ∃ t t', exec i { nextSignal s with commands := rest } = .next t ∧ step s = .next t' ∧
      t'.trace = s.trace ++ (newEvents s t).take n ∧ t'.responses = s.responses ∧
      t'.dev = List.replicate s.nUnits DeviceRecord.zero ∧ t'.commands = rest

/-! ### Calibration -/

/-- R100, R101: `DERIVE` returns the triple computed in three truncating steps, or `ERR_DIV0` when the
divisor is 0; it reads and writes no state and makes no bus call. -/
def Obligations.DeriveReturnsTheTriple : Prop :=
  ∀ (ma : Word16) (sh : Word32) (s : State),
    encodedAs (.derive ma sh) 0x02 .d ∧
    let clsb := ma.toNat * 1000000 / 32767
    let d := clsb * sh.toNat / 100000
    let q := 51200000 / d
    ∃ t, exec (.derive ma sh) s = .next t ∧
      EndsWith s t s.dev
        (if d = 0 then faultResponse .errDiv0
         else { status := .ok, res0 := BitVec.ofNat 32 clsb, res1 := BitVec.ofNat 32 (clsb * 25)
                res2 := BitVec.ofNat 16 (q % 65536) }) []

/-- R107: the bounds of every intermediate, so that 64 bits compute exactly what exact integers do and
32 bits do not; and the stored 32-bit coefficients lose nothing. -/
def Obligations.DeriveIntermediatesAreBounded : Prop :=
  (∀ (ma : Word16) (sh : Word32),
    ma.toNat * 1000000 ≤ 65535000000 ∧ 65535000000 < 2 ^ 36 ∧
    clsbOf ma ≤ 2000030 ∧ 2000030 < 2 ^ 21 ∧
    clsbOf ma * sh.toNat ≤ 8590063439018850 ∧ 8590063439018850 < 2 ^ 53 ∧
    divisorOf ma sh ≤ 85900634390 ∧ 85900634390 < 2 ^ 37 ∧
    quotientOf ma sh ≤ 51200000 ∧ 51200000 < 2 ^ 26 ∧
    plsbOf ma ≤ 50000750 ∧ 50000750 < 2 ^ 26 ∧
    (BitVec.ofNat 32 (clsbOf ma)).toNat = clsbOf ma ∧
    (BitVec.ofNat 32 (plsbOf ma)).toNat = plsbOf ma) ∧
  clsbOf 819 * 100000 = 2499400000 ∧ 2 ^ 31 < clsbOf 819 * 100000

/-- R108: the calibration returned, stored and written is the low 16 bits of the quotient, which fits exactly
when D >= 782; no divisor but 0 is a fault; with the examples of the rule. -/
def Obligations.CalibrationKeepsTheLowSixteenBits : Prop :=
  (∀ (ma : Word16) (sh : Word32), divisorOf ma sh ≠ 0 →
    (∃ c, deriveCoefficients ma sh = some c ∧ c.cal.toNat = quotientOf ma sh % 65536) ∧
    (quotientOf ma sh < 65536 ↔ 782 ≤ divisorOf ma sh) ∧
    (quotientOf ma sh = 0 ↔ 51200000 < divisorOf ma sh) ∧
    ∀ s : State,
      (∃ t r, exec (.derive ma sh) s = .next t ∧ newResponses s t = [r] ∧ r.status = .ok ∧
        r.res2.toNat = quotientOf ma sh % 65536) ∧
      ∀ (u : UnitId) (addr a : BusAddr) (v : Word16) (t : State),
        exec (.begin u addr ma sh) s = .next t → BusEvent.write a .calib v ∈ newEvents s t →
          v.toNat = quotientOf ma sh % 65536 ∧
            (t.dev[u.toNat]?).map DeviceRecord.calibration = some v) ∧
  quotientOf 1 3334 = 51200000 ∧
  (deriveCoefficients 1 3334).map Coefficients.cal = some 0x4000 ∧
  (deriveCoefficients 800 1000).map Coefficients.cal = some 0x33AC ∧
  (deriveCoefficients 65535 4294967295).map Coefficients.cal = some 0

/-- R109: the divisor is 0 exactly when `clsb * sh < 100000`, so for `ma = 0`, for `sh = 0`, and for more;
the smallest `sh` that avoids it is `ceil(100000 / clsb)`, 3334 for `clsb` = 30; and then `DERIVE` and
`BEGIN` answer `ERR_DIV0` with no other effect. -/
def Obligations.DivisorIsZeroExactlyBelowTheProductBound : Prop :=
  (∀ (ma : Word16) (sh : Word32),
    (deriveCoefficients ma sh = none ↔ clsbOf ma * sh.toNat < 100000) ∧
    (0 < clsbOf ma →
      (deriveCoefficients ma sh ≠ none ↔ (100000 + clsbOf ma - 1) / clsbOf ma ≤ sh.toNat))) ∧
  (∀ sh, deriveCoefficients 0 sh = none) ∧ (∀ ma, deriveCoefficients ma 0 = none) ∧
  (∀ (ma : Word16) (sh : Word32) (s : State), clsbOf ma * sh.toNat < 100000 →
    (∃ t, exec (.derive ma sh) s = .next t ∧ EndsWith s t s.dev (faultResponse .errDiv0) []) ∧
    ∀ (u : UnitId) (addr : BusAddr), u.toNat < s.nUnits →
      ∃ t, exec (.begin u addr ma sh) s = .next t ∧
        EndsWith s t s.dev (faultResponse .errDiv0) []) ∧
  clsbOf 1 = 30 ∧ deriveCoefficients 1 1000 = none ∧ deriveCoefficients 1 3333 = none ∧
  (deriveCoefficients 1 3334).isSome = true

/-! ### Scalers -/

/-- R117, R119: `SCALE_BUS` takes raw as unsigned, `SCALE_SHUNT` as two's complement and truncates toward
zero; neither reads or writes state. -/
def Obligations.VoltageScalersReturnTheScaledRaw : Prop :=
  ∀ (raw : Word16) (s : State),
    encodedAs (.scaleBus raw) 0x03 .r ∧ encodedAs (.scaleShunt raw) 0x04 .r ∧
    (∃ t, exec (.scaleBus raw) s = .next t ∧
      EndsWith s t s.dev (okRes0 (BitVec.ofNat 32 (raw.toNat * 125 / 100))) []) ∧
    ∃ t, exec (.scaleShunt raw) s = .next t ∧
      EndsWith s t s.dev (okRes0 (BitVec.ofInt 32 ((raw.toInt * 25).tdiv 10))) []

/-- R121, R123: `SCALE_CUR` takes raw as two's complement and scales by the record's `current_lsb`,
`SCALE_PWR` as unsigned and by its `power_lsb`. For coefficients outside the ranges of R46, which no run
reaches, that the low 32 bits of the exact result are returned is the model's choice (log 12). -/
def Obligations.CurrentAndPowerScalersUseTheRecord : Prop :=
  ∀ (u : UnitId) (raw : Word16) (s : State),
    encodedAs (.scaleCur u raw) 0x05 .ui ∧ encodedAs (.scalePwr u raw) 0x06 .ui ∧
    (∃ t, exec (.scaleCur u raw) s = .next t ∧
      EndsWith s t s.dev
        (match s.dev[u.toNat]? with
         | none => faultResponse .errUnit
         | some d => okRes0 (BitVec.ofInt 32 ((raw.toInt * (d.currentLsb.toNat : Int)).tdiv 1000))) []) ∧
    ∃ t, exec (.scalePwr u raw) s = .next t ∧
      EndsWith s t s.dev
        (match s.dev[u.toNat]? with
         | none => faultResponse .errUnit
         | some d => okRes0 (BitVec.ofNat 32 (raw.toNat * d.powerLsb.toNat / 1000))) []

/-- R116: with coefficients in the ranges of R46 no scaler overflows: the bounds of the rule hold, and the
32-bit patterns stand for the exact results; 32-bit products would not do, as the rule's example shows. -/
def Obligations.ScalersNeverOverflow : Prop :=
  (∀ (raw : Word16) (clsb plsb : Word32), clsb.toNat ≤ 2000030 → plsb.toNat ≤ 50000750 →
    raw.toNat * 125 ≤ 8191875 ∧ scaleBus raw ≤ 81918 ∧ (asU32 (scaleBus raw)).toNat = scaleBus raw ∧
    -819200 ≤ raw.toInt * 25 ∧ raw.toInt * 25 ≤ 819175 ∧
    -81920 ≤ scaleShunt raw ∧ scaleShunt raw ≤ 81917 ∧ (asS32 (scaleShunt raw)).toInt = scaleShunt raw ∧
    (raw.toInt * (clsb.toNat : Int)).natAbs ≤ 65536983040 ∧ 65536983040 < 2 ^ 36 ∧
    -65536983 ≤ scaleCur raw clsb ∧ scaleCur raw clsb ≤ 65534983 ∧
    (asS32 (scaleCur raw clsb)).toInt = scaleCur raw clsb ∧
    raw.toNat * plsb.toNat ≤ 3276799151250 ∧ 3276799151250 < 2 ^ 42 ∧
    scalePwr raw plsb ≤ 3276799151 ∧ 2 ^ 31 - 1 < 3276799151 ∧
    (asU32 (scalePwr raw plsb)).toNat = scalePwr raw plsb) ∧
  32767 * clsbOf 819 = 818978398 ∧ 65535 * plsbOf 819 = 40949544750 ∧ 2 ^ 32 < 65535 * plsbOf 819

/-- R115: each scaler is its exact product divided once, truncating toward zero (R14). R118, R120: the bus
scaler is exact exactly on multiples of 4, the shunt scaler exactly on even raw values; truncation toward zero
makes the shunt scaler odd; with the values D0 requires. -/
def Obligations.ScalersTruncateTowardZero : Prop :=
  (∀ (raw : Word16) (lsb : Word32),
    truncatesTo (raw.toNat * 125) 100 (scaleBus raw) ∧
    truncatesTo (raw.toInt * 25) 10 (scaleShunt raw) ∧
    truncatesTo (raw.toInt * lsb.toNat) 1000 (scaleCur raw lsb) ∧
    truncatesTo (raw.toNat * lsb.toNat) 1000 (scalePwr raw lsb)) ∧
  (∀ raw : Word16, 100 * scaleBus raw = 125 * raw.toNat ↔ raw.toNat % 4 = 0) ∧
  scaleBus 1 = 1 ∧ scaleBus 0 = 0 ∧
  (∀ raw : Word16, 10 * scaleShunt raw = 25 * raw.toInt ↔ raw.toInt % 2 = 0) ∧
  (∀ raw : Word16, raw ≠ 0x8000#16 → scaleShunt (-raw) = -scaleShunt raw) ∧
  scaleShunt 4 = 10

/-! ### The mode, averaging and conversion-time state machine -/

/-- R130: `Rmw` makes exactly two bus calls, the read and always the write, on the same register; every bit
outside `clear` and `set` is written back as read. -/
def Obligations.ReadModifyWriteMakesTwoCalls : Prop :=
  ∀ (a : BusAddr) (r : Reg) (clear set : Word16) (s : State),
    ∃ v, (rmw a r clear set s).trace = s.trace ++ [.read a r (s.answerAt 0 0), .write a r v] ∧
      v = ((s.answerAt 0 0 &&& ~~~clear) ||| set) ∧
      (∀ k < 16, clear.getLsbD k = false → set.getLsbD k = false →
        v.getLsbD k = (s.answerAt 0 0).getLsbD k) ∧
      (rmw a r clear set s).dev = s.dev ∧ (rmw a r clear set s).responses = s.responses

/-- R131: `SET_MODE` clears bits [2:0] of `CONFIG`, ORs in the low 4 bits of the operand, and caches
them. -/
def Obligations.SetModeWritesConfigAndTheCache : Prop :=
  ∀ (u : UnitId) (mode : Word16) (s : State), encodedAs (.setMode u mode) 0x07 .ui ∧
    ∃ t, exec (.setMode u mode) s = .next t ∧
    match s.dev[u.toNat]? with
    | none => EndsWith s t s.dev (faultResponse .errUnit) []
    | some d =>
      EndsWith s t (s.dev.set u.toNat { d with operatingMode := mode.extractLsb' 0 4 }) okResponse
        [.read d.busAddress .config (s.answerAt 0 0),
         .write d.busAddress .config ((s.answerAt 0 0 &&& ~~~0x0007#16) ||| (mode &&& 0x000F#16))]

/-- R132: bits [15:4] of `CONFIG` are written back as read; bit 3 is set when the operand's bit 3 is 1 and
as read otherwise, so that it can be set and never cleared; bits [2:0] are the operand's. With the rule's
example. -/
def Obligations.SetModeCanSetBitThreeButNotClearIt : Prop :=
  (∀ (u : UnitId) (mode : Word16) (s t : State), u.toNat < s.nUnits →
    exec (.setMode u mode) s = .next t →
    ∃ a c v, newEvents s t = [.read a .config c, .write a .config v] ∧
      (∀ k, 4 ≤ k → v.getLsbD k = c.getLsbD k) ∧
      v.getLsbD 3 = (c.getLsbD 3 || mode.getLsbD 3) ∧
      ∀ k < 3, v.getLsbD k = mode.getLsbD k) ∧
  rmwWord modeMask (modeOperand 0x1B) 0x4127 = 0x412B

/-- R134: (a) `SET_MODE u, x` and then `GET_MODE u` return `x AND 0xF`; (b) every bit outside the mode field
is preserved: bits [15:4] always, bit 3 when the operand's bit 3 is 0; (c) the cache's bits [2:0] are those of the word
written. -/
def Obligations.SetModeThenGetModeReturnsTheMaskedMode : Prop :=
  ∀ (u : UnitId) (x : Word16) (s : State), u.toNat < s.nUnits →
    ∃ t t' a c v, exec (.setMode u x) s = .next t ∧ exec (.getMode u) t = .next t' ∧
      newEvents s t = [.read a .config c, .write a .config v] ∧
      newResponses s t = [okResponse] ∧
      newResponses t t' = [okRes0 ((x &&& 0x000F#16).setWidth 32)] ∧ newEvents t t' = [] ∧
      (∀ k, 4 ≤ k → v.getLsbD k = c.getLsbD k) ∧
      (x.getLsbD 3 = false → ∀ k, 3 ≤ k → v.getLsbD k = c.getLsbD k) ∧
      (t.dev[u.toNat]?).map (fun d => d.operatingMode.extractLsb' 0 3) = some (configMode v)

/-- R136: `SET_AVG` writes the averaging index into bits [11:9] of `CONFIG` and nothing into the
registry. -/
def Obligations.SetAvgWritesTheAveragingField : Prop :=
  ∀ (u : UnitId) (count : Word16) (s : State), encodedAs (.setAvg u count) 0x08 .ui ∧
    ∃ t, exec (.setAvg u count) s = .next t ∧
    match s.dev[u.toNat]? with
    | none => EndsWith s t s.dev (faultResponse .errUnit) []
    | some d =>
      EndsWith s t s.dev okResponse
        [.read d.busAddress .config (s.answerAt 0 0),
         .write d.busAddress .config
           ((s.answerAt 0 0 &&& ~~~0x0E00#16) ||| (avgIndex count <<< 9))]

/-- R137, R138: the index chosen is that of the largest tier not exceeding the request, and 0 for a request
of 0; with the outcomes D0 requires. -/
def Obligations.AveragingIndexIsTheLargestTierNotExceeding : Prop :=
  (∀ count : Word16, ∃ i : Fin 8, (avgIndex count).toNat = i.val ∧
    (0 < count.toNat → avgSamples i ≤ count.toNat) ∧
    (∀ j : Fin 8, avgSamples j ≤ count.toNat → j ≤ i) ∧
    (count.toNat ≤ 3 → i = 0)) ∧
  avgIndex 500 = 5 ∧ avgSamples 5 = 256 ∧ avgIndex 1 = 0 ∧ avgIndex 2000 = 7

/-- R140, R142: `SET_BUS_CT` and `SET_SHUNT_CT` write the code, saturated at 7, into bits [8:6] and [5:3] of
`CONFIG`. -/
def Obligations.ConversionTimeSettersClampTheCode : Prop :=
  ∀ (u : UnitId) (code : Word16) (s : State),
    encodedAs (.setBusCt u code) 0x09 .ui ∧ encodedAs (.setShuntCt u code) 0x0A .ui ∧
    ∃ k : Word16, k.toNat = min code.toNat 7 ∧
    (∃ t, exec (.setBusCt u code) s = .next t ∧
      match s.dev[u.toNat]? with
      | none => EndsWith s t s.dev (faultResponse .errUnit) []
      | some d =>
        EndsWith s t s.dev okResponse
          [.read d.busAddress .config (s.answerAt 0 0),
           .write d.busAddress .config ((s.answerAt 0 0 &&& ~~~0x01C0#16) ||| (k <<< 6))]) ∧
    ∃ t, exec (.setShuntCt u code) s = .next t ∧
      match s.dev[u.toNat]? with
      | none => EndsWith s t s.dev (faultResponse .errUnit) []
      | some d =>
        EndsWith s t s.dev okResponse
          [.read d.busAddress .config (s.answerAt 0 0),
           .write d.busAddress .config ((s.answerAt 0 0 &&& ~~~0x0038#16) ||| (k <<< 3))]

/-- R144: `RESET` writes 0x8000 to `CONFIG` without reading it, delays, and leaves the registry as it
was. -/
def Obligations.ResetWritesTheResetWordAndDelays : Prop :=
  ∀ (u : UnitId) (s : State), encodedAs (.reset u) 0x0B .u ∧ ∃ t, exec (.reset u) s = .next t ∧
    match s.dev[u.toNat]? with
    | none => EndsWith s t s.dev (faultResponse .errUnit) []
    | some d => EndsWith s t s.dev okResponse [.write d.busAddress .config 0x8000#16, .delay]

/-- R147: `WAIT_CONV` reads `MASK_EN` at least once; it ends with `OK` where that word shows the ready bit,
whatever its other bits, and else goes on waiting. One poll to a step is the model's choice (log 8). -/
def Obligations.WaitConvEndsWhenTheReadyBitIsSeen : Prop :=
  ∀ (u : UnitId) (s : State), encodedAs (.waitConv u) 0x0C .u ∧ ∃ t, exec (.waitConv u) s = .next t ∧
    match s.dev[u.toNat]? with
    | none => EndsWith s t s.dev (faultResponse .errUnit) []
    | some d =>
      if (s.answerAt 0 0).getLsbD s.params.cvrfBit.val = true then
        EndsWith s t s.dev okResponse [.read d.busAddress .maskEn (s.answerAt 0 0)]
      else StillWaits s t d.busAddress .waitConv (s.answerAt 0 0)

/-- R147, R149: with answers that lack the ready bit and then one that has it, `WAIT_CONV` makes exactly
one read of `MASK_EN` for each, ends with `OK` on the last, and writes nothing (one poll a step: log 8). -/
def Obligations.WaitConvEndsAtTheFirstReadyWord : Prop :=
  ∀ (s : State) (u : UnitId) (d : DeviceRecord) (ws rest : List Word16) (r : Word16),
    s.dev[u.toNat]? = some d → s.resetLine = [] → s.env.reads = ws ++ r :: rest →
    (∀ w ∈ ws, w.getLsbD s.params.cvrfBit.val = false) → r.getLsbD s.params.cvrfBit.val = true →
    ∃ t0 t, exec (.waitConv u) s = .next t0 ∧ Host.Core.run core ws.length t0 = .next t ∧
      EndsWith s t s.dev okResponse ((ws ++ [r]).map (BusEvent.read d.busAddress .maskEn))

/-- R148, R198, U13: while no answer shows the ready bit the wait goes on: after any number of steps the
command is still in progress, has given no response, and has made one more read of `MASK_EN` per step
(one poll a step: log 8). -/
def Obligations.WaitingGoesOnForEverWithoutTheReadyBit : Prop :=
  ∀ (s : State) (a : BusAddr) (next : AfterWait) (n : Nat),
    s.activity = .polling a next → s.resetLine = [] →
    (∀ k < n, (s.answerAt k k).getLsbD s.params.cvrfBit.val = false) →
    ∃ t, Host.Core.run core n s = .next t ∧ t.activity = .polling a next ∧ t.dev = s.dev ∧
      t.responses = s.responses ∧ t.commands = s.commands ∧
      t.trace = s.trace ++ (List.range n).map fun k => BusEvent.read a .maskEn (s.answerAt k k)

/-- R148: a step leaves the loop only with a read that shows the ready bit, or by hardware reset (R211; the
signal: log 11). -/
def Obligations.OnlyTheReadyBitOrResetEndsAWait : Prop :=
  ∀ (s t : State) (a : BusAddr) (next : AfterWait),
    s.activity = .polling a next → step s = .next t → t.activity ≠ .polling a next →
    (s.resetSignal ≠ .low ∧ t.dev = List.replicate s.nUnits DeviceRecord.zero ∧
        t.responses = s.responses) ∨
      ((s.answerAt 0 0).getLsbD s.params.cvrfBit.val = true ∧
        ∃ es, t.trace = s.trace ++ .read a .maskEn (s.answerAt 0 0) :: es)

/-- R150: `SET_ALERT_CNVR` sets or clears bit `CNVR_BIT` of `MASK_EN` and writes the other fifteen back as
read. -/
def Obligations.SetAlertCnvrWritesOneBit : Prop :=
  ∀ (u : UnitId) (enabled : Bool) (s : State), encodedAs (.setAlertCnvr u enabled) 0x0D .uf ∧
    ∃ t, exec (.setAlertCnvr u enabled) s = .next t ∧
    match s.dev[u.toNat]? with
    | none => EndsWith s t s.dev (faultResponse .errUnit) []
    | some d =>
      ∃ v : Word16,
        (∀ k < 16, v.getLsbD k =
          if k = s.params.cnvrBit.val then enabled else (s.answerAt 0 0).getLsbD k) ∧
        EndsWith s t s.dev okResponse
          [.read d.busAddress .maskEn (s.answerAt 0 0), .write d.busAddress .maskEn v]

/-- R152: what each command of the family writes, field by field, computed from the word c it read, and what
it leaves in the registry. -/
def Obligations.ConfigFieldsMoveAsTabled : Prop :=
  ∀ (u : UnitId) (x : Word16) (e : Bool) (s : State), u.toNat < s.nUnits →
    (∃ t a c v, exec (.setMode u x) s = .next t ∧
      newEvents s t = [.read a .config c, .write a .config v] ∧
      configHigh v = configHigh c ∧ configAvg v = configAvg c ∧ configBusCt v = configBusCt c ∧
      configShuntCt v = configShuntCt c ||| (x.extractLsb' 3 1).setWidth 3 ∧
      configMode v = x.extractLsb' 0 3 ∧
      ∃ d, s.dev[u.toNat]? = some d ∧
        t.dev = s.dev.set u.toNat { d with operatingMode := x.extractLsb' 0 4 }) ∧
    (∃ t a c v, exec (.setAvg u x) s = .next t ∧
      newEvents s t = [.read a .config c, .write a .config v] ∧
      configHigh v = configHigh c ∧ configAvg v = (avgIndex x).setWidth 3 ∧
      configBusCt v = configBusCt c ∧ configShuntCt v = configShuntCt c ∧
      configMode v = configMode c ∧ t.dev = s.dev) ∧
    (∃ t a c v, exec (.setBusCt u x) s = .next t ∧
      newEvents s t = [.read a .config c, .write a .config v] ∧
      configHigh v = configHigh c ∧ configAvg v = configAvg c ∧
      (configBusCt v).toNat = min x.toNat 7 ∧ configShuntCt v = configShuntCt c ∧
      configMode v = configMode c ∧ t.dev = s.dev) ∧
    (∃ t a c v, exec (.setShuntCt u x) s = .next t ∧
      newEvents s t = [.read a .config c, .write a .config v] ∧
      configHigh v = configHigh c ∧ configAvg v = configAvg c ∧ configBusCt v = configBusCt c ∧
      (configShuntCt v).toNat = min x.toNat 7 ∧ configMode v = configMode c ∧ t.dev = s.dev) ∧
    (∃ t a v, exec (.reset u) s = .next t ∧ newEvents s t = [.write a .config v, .delay] ∧
      configHigh v = 0b1000#4 ∧ configAvg v = 0 ∧ configBusCt v = 0 ∧ configShuntCt v = 0 ∧
      configMode v = 0 ∧ t.dev = s.dev) ∧
    (∃ t a c, exec (.waitConv u) s = .next t ∧ newEvents s t = [.read a .maskEn c] ∧ t.dev = s.dev) ∧
    (∃ t a c v, exec (.setAlertCnvr u e) s = .next t ∧
      newEvents s t = [.read a .maskEn c, .write a .maskEn v] ∧
      v.getLsbD s.params.cnvrBit.val = e ∧
      (∀ k, k ≠ s.params.cnvrBit.val → v.getLsbD k = c.getLsbD k) ∧ t.dev = s.dev) ∧
    ∀ a, (∃ c, newEvents s (retrigger a s) = [.read a .config c, .write a .config c]) ∧
      (retrigger a s).dev = s.dev

/-! ### The read operations -/

/-- R156: `GET_BUS_MV`: the wait first where asked for, then the data read, then the re-trigger where the
cached mode has bit 2 clear and bit 1 set. That a wait is still in progress after one poll, one poll being
one step, is the model's choice (log 8). -/
def Obligations.GetBusMvReadsScalesAndRetriggers : Prop :=
  ∀ (u : UnitId) (wait : Bool) (s : State), encodedAs (.getBusMv u wait) 0x0E .uf ∧
    ∃ t, exec (.getBusMv u wait) s = .next t ∧
    match s.dev[u.toNat]? with
    | none => EndsWith s t s.dev (faultResponse .errUnit) []
    | some d =>
      let n := if wait then 1 else 0
      let poll := if wait then [BusEvent.read d.busAddress .maskEn (s.answerAt 0 0)] else []
      let raw := s.answerAt n n
      let c := s.answerAt (n + 1) (n + 1)
      if wait = true ∧ (s.answerAt 0 0).getLsbD s.params.cvrfBit.val = false then
        StillWaits s t d.busAddress (.getBusMv u) (s.answerAt 0 0)
      else
        EndsWith s t s.dev (okRes0 (BitVec.ofNat 32 (raw.toNat * 125 / 100)))
          (poll ++ [.read d.busAddress .busV raw] ++
            if d.operatingMode.getLsbD 2 = false ∧ d.operatingMode.getLsbD 1 = true then
              [.read d.busAddress .config c, .write d.busAddress .config c]
            else [])

/-- R158: `GET_SHUNT_UV`: as R156 with register 1, the signed scaler, and bit 0 of the cached mode. That a
wait is still in progress after one poll, one poll being one step, is the model's choice (log 8). -/
def Obligations.GetShuntUvReadsScalesAndRetriggers : Prop :=
  ∀ (u : UnitId) (wait : Bool) (s : State), encodedAs (.getShuntUv u wait) 0x0F .uf ∧
    ∃ t, exec (.getShuntUv u wait) s = .next t ∧
    match s.dev[u.toNat]? with
    | none => EndsWith s t s.dev (faultResponse .errUnit) []
    | some d =>
      let n := if wait then 1 else 0
      let poll := if wait then [BusEvent.read d.busAddress .maskEn (s.answerAt 0 0)] else []
      let raw := s.answerAt n n
      let c := s.answerAt (n + 1) (n + 1)
      if wait = true ∧ (s.answerAt 0 0).getLsbD s.params.cvrfBit.val = false then
        StillWaits s t d.busAddress (.getShuntUv u) (s.answerAt 0 0)
      else
        EndsWith s t s.dev (okRes0 (BitVec.ofInt 32 ((raw.toInt * 25).tdiv 10)))
          (poll ++ [.read d.busAddress .shuntV raw] ++
            if d.operatingMode.getLsbD 2 = false ∧ d.operatingMode.getLsbD 0 = true then
              [.read d.busAddress .config c, .write d.busAddress .config c]
            else [])

/-- R156, R158, R147: a voltage read that has to wait polls until the first ready word and then does what
it does without waiting: data read, scaling, re-trigger (one poll a step: log 8). The answers after the ready
word are supplied or free (log 4). -/
def Obligations.WaitingReadsFinishAfterTheReadyWord : Prop :=
  ∀ (s : State) (u : UnitId) (d : DeviceRecord) (ws rest : List Word16) (r : Word16),
    s.dev[u.toNat]? = some d → s.resetLine = [] → s.env.reads = ws ++ r :: rest →
    (∀ w ∈ ws, w.getLsbD s.params.cvrfBit.val = false) → r.getLsbD s.params.cvrfBit.val = true →
    let n := ws.length + 1
    let raw := s.answerAt n n
    let c := s.answerAt (n + 1) (n + 1)
    (∃ t0 t, exec (.getBusMv u true) s = .next t0 ∧ Host.Core.run core ws.length t0 = .next t ∧
      EndsWith s t s.dev (okRes0 (BitVec.ofNat 32 (raw.toNat * 125 / 100)))
        ((ws ++ [r]).map (BusEvent.read d.busAddress .maskEn) ++
          .read d.busAddress .busV raw ::
            if retriggersBus d.operatingMode then
              [.read d.busAddress .config c, .write d.busAddress .config c]
            else [])) ∧
    ∃ t0 t, exec (.getShuntUv u true) s = .next t0 ∧ Host.Core.run core ws.length t0 = .next t ∧
      EndsWith s t s.dev (okRes0 (BitVec.ofInt 32 ((raw.toInt * 25).tdiv 10)))
        ((ws ++ [r]).map (BusEvent.read d.busAddress .maskEn) ++
          .read d.busAddress .shuntV raw ::
            if retriggersShunt d.operatingMode then
              [.read d.busAddress .config c, .write d.busAddress .config c]
            else [])

/-- R159: the table over all sixteen cached modes: a read re-triggers exactly when the named mode (R34) is
triggered and converts the quantity read; bit 3 does not enter. -/
def Obligations.RetriggerTestFollowsTheTable : Prop :=
  (∀ m : ModeBits,
    retriggersBus m =
      ((modeName (m.extractLsb' 0 3)).isTriggered && (modeName (m.extractLsb' 0 3)).convertsBus) ∧
    retriggersShunt m =
      ((modeName (m.extractLsb' 0 3)).isTriggered && (modeName (m.extractLsb' 0 3)).convertsShunt)) ∧
  ([0, 1, 2, 3, 4, 5, 6, 7].map fun m => retriggersBus (BitVec.ofNat 4 m)) =
    [false, false, true, true, false, false, false, false] ∧
  ([0, 1, 2, 3, 4, 5, 6, 7].map fun m => retriggersShunt (BitVec.ofNat 4 m)) =
    [false, true, false, true, false, false, false, false]

/-- R162, R164: `GET_CUR_UA` and `GET_PWR_UW`: one read, of register 4 and of register 3, scaled by the
record's `current_lsb` and `power_lsb`; no wait and no re-trigger. For coefficients outside the ranges of
R46, which no run reaches, that the low 32 bits of the exact result are returned is the model's choice (log
12). -/
def Obligations.CurrentAndPowerReadsScaleOneWord : Prop :=
  ∀ (u : UnitId) (s : State),
    encodedAs (.getCurUa u) 0x10 .u ∧ encodedAs (.getPwrUw u) 0x11 .u ∧
    (∃ t, exec (.getCurUa u) s = .next t ∧
      match s.dev[u.toNat]? with
      | none => EndsWith s t s.dev (faultResponse .errUnit) []
      | some d =>
        EndsWith s t s.dev
          (okRes0 (BitVec.ofInt 32
            (((s.answerAt 0 0).toInt * (d.currentLsb.toNat : Int)).tdiv 1000)))
          [.read d.busAddress .current (s.answerAt 0 0)]) ∧
    ∃ t, exec (.getPwrUw u) s = .next t ∧
      match s.dev[u.toNat]? with
      | none => EndsWith s t s.dev (faultResponse .errUnit) []
      | some d =>
        EndsWith s t s.dev
          (okRes0 (BitVec.ofNat 32 ((s.answerAt 0 0).toNat * d.powerLsb.toNat / 1000)))
          [.read d.busAddress .power (s.answerAt 0 0)]

/-- R166: a read command returns what the scaler command returns for the data word it read; the words read
from registers 6 and 0 do not enter. -/
def Obligations.ReadsReturnWhatTheScalersReturn : Prop :=
  ∀ (u : UnitId) (s t : State), u.toNat < s.nUnits →
    (exec (.getBusMv u false) s = .next t → ∃ a w es t', newEvents s t = .read a .busV w :: es ∧
      exec (.scaleBus w) s = .next t' ∧ newResponses s t = newResponses s t') ∧
    (exec (.getShuntUv u false) s = .next t → ∃ a w es t', newEvents s t = .read a .shuntV w :: es ∧
      exec (.scaleShunt w) s = .next t' ∧ newResponses s t = newResponses s t') ∧
    (exec (.getBusMv u true) s = .next t → t.activity = .idle →
      ∃ a p w es t', newEvents s t = .read a .maskEn p :: .read a .busV w :: es ∧
        exec (.scaleBus w) s = .next t' ∧ newResponses s t = newResponses s t') ∧
    (exec (.getShuntUv u true) s = .next t → t.activity = .idle →
      ∃ a p w es t', newEvents s t = .read a .maskEn p :: .read a .shuntV w :: es ∧
        exec (.scaleShunt w) s = .next t' ∧ newResponses s t = newResponses s t') ∧
    (exec (.getCurUa u) s = .next t → ∃ a w t', newEvents s t = [.read a .current w] ∧
      exec (.scaleCur u w) s = .next t' ∧ newResponses s t = newResponses s t') ∧
    (exec (.getPwrUw u) s = .next t → ∃ a w t', newEvents s t = [.read a .power w] ∧
      exec (.scalePwr u w) s = .next t' ∧ newResponses s t = newResponses s t')

/-! ### Setup and the accessors -/

/-- R171: `BEGIN`: the two faults before any bus event, the silent paths P1 and P2, and path P3, which
writes all five fields of one record and then the device's `CALIB`. -/
def Obligations.BeginTakesItsFourOutcomes : Prop :=
  ∀ (u : UnitId) (addr : BusAddr) (ma : Word16) (sh : Word32) (s : State),
    encodedAs (.begin u addr ma sh) 0x01 .s ∧
    let clsb := ma.toNat * 1000000 / 32767
    let div := clsb * sh.toNat / 100000
    let cal := BitVec.ofNat 16 (51200000 / div)
    let acked := s.env.probes.headD (Config.freeAck s.env.draws)
    let c := s.answerAt 0 2
    ∃ t, exec (.begin u addr ma sh) s = .next t ∧
      if s.nUnits ≤ u.toNat then EndsWith s t s.dev (faultResponse .errUnit) []
      else if div = 0 then EndsWith s t s.dev (faultResponse .errDiv0) []
      else if acked = false then EndsWith s t s.dev okResponse [.probe addr false]
      else if c ≠ s.params.configDefault then
        EndsWith s t s.dev okResponse
          [.probe addr true, .write addr .config 0x8000#16, .delay, .read addr .config c]
      else
        EndsWith s t
          (s.dev.set u.toNat
            { busAddress := addr, currentLsb := BitVec.ofNat 32 clsb, calibration := cal
              powerLsb := BitVec.ofNat 32 (clsb * 25), operatingMode := 0b0111#4 })
          okResponse
          [.probe addr true, .write addr .config 0x8000#16, .delay, .read addr .config c,
           .write addr .calib cal]

/-- R173 (b): what a successful `BEGIN` leaves in the record depends on its operands alone, so re-running
it overwrites everything the record held and running it twice leaves what running it once does. -/
def Obligations.SuccessfulBeginLeavesARecordOfItsOperands : Prop :=
  ∀ (u : UnitId) (addr : BusAddr) (ma : Word16) (sh : Word32) (s1 s2 t1 t2 : State) (a1 a2 : BusAddr)
    (v1 v2 : Word16),
    exec (.begin u addr ma sh) s1 = .next t1 → exec (.begin u addr ma sh) s2 = .next t2 →
    BusEvent.write a1 .calib v1 ∈ newEvents s1 t1 → BusEvent.write a2 .calib v2 ∈ newEvents s2 t2 →
    t1.dev[u.toNat]? = t2.dev[u.toNat]? ∧ (t1.dev[u.toNat]?).isSome = true ∧ v1 = v2 ∧
      (t1.dev[u.toNat]?).map DeviceRecord.calibration = some v1

/-- R176 to R180: each accessor returns its field and touches nothing. -/
def Obligations.AccessorsReturnTheirFields : Prop :=
  ∀ (u : UnitId) (s : State),
    let answers := fun (i : Instr) (op : BitVec 5) (r : DeviceRecord → Response) =>
      encodedAs i op .u ∧ ∃ t, exec i s = .next t ∧
        EndsWith s t s.dev
          (match s.dev[u.toNat]? with
           | none => faultResponse .errUnit
           | some d => r d) []
    answers (.getAddr u) 0x12 (fun d => okRes0 (d.busAddress.setWidth 32)) ∧
    answers (.getCal u) 0x13
      (fun d => { status := .ok, res0 := 0, res1 := 0, res2 := d.calibration }) ∧
    answers (.getClsb u) 0x14 (fun d => okRes0 d.currentLsb) ∧
    answers (.getPlsb u) 0x15 (fun d => okRes0 d.powerLsb) ∧
    answers (.getMode u) 0x16 (fun d => okRes0 (d.operatingMode.setWidth 32))

/-! ### Every command, every step -/

/-- R191: every command that uses `unit`, and no other, faults with `ERR_UNIT` on a unit that names no
record, and has no other effect. With three records the one such value is 3; with four the fault cannot
occur. -/
def Obligations.UnitOutOfRangeFaultsEveryCommandThatUsesIt : Prop :=
  ∀ (i : Instr) (s : State),
    ((∃ u, unitOf i = some u ∧ s.nUnits ≤ u.toNat) ↔
      ∃ t, exec i s = .next t ∧ EndsWith s t s.dev (faultResponse .errUnit) []) ∧
    (s.nUnits = 3 → ∀ u : UnitId, s.nUnits ≤ u.toNat ↔ u = 3) ∧
    (s.nUnits = 4 → ∀ u : UnitId, u.toNat < s.nUnits)

/-- R194: a command that answers a fault is, in state and trace, as if never issued: the one change is its
response, whose results are 0. -/
def Obligations.FaultingCommandsHaveNoOtherEffect : Prop :=
  ∀ (i : Instr) (s t : State) (r : Response), exec i s = .next t → r ∈ newResponses s t →
    r.status ≠ .ok →
    t = { s with responses := s.responses ++ [faultResponse r.status], activity := .idle }

/-- R192, R193, R199: how each command ends: `ERR_UNIT` before `ERR_DIV0`, each exactly on its cause; else
one response `OK`, except that `WAIT_CONV`, and the reads with the wait flag, may still be waiting (that
`exec` is then the first poll alone is the model's choice, log 8). With the numbers of the statuses on the
response port (R80). -/
def Obligations.EveryCommandEndsAsTabled : Prop :=
  ([Status.ok, .errIllegal, .errUnit, .errDiv0].map Status.code = [0, 1, 2, 3]) ∧
  ∀ (i : Instr) (s t : State), exec i s = .next t →
    (unitFault i s = true → newResponses s t = [faultResponse .errUnit]) ∧
    (unitFault i s = false → divFault i = true → newResponses s t = [faultResponse .errDiv0]) ∧
    (unitFault i s = false → divFault i = false →
      (∃ r, newResponses s t = [r] ∧ r.status = .ok ∧ t.activity = .idle) ∨
        (canHang i = true ∧ newResponses s t = [] ∧ ∃ a next, t.activity = .polling a next))

/-- R20 to R25, R29, R203: no command changes the number of records or a record other than its unit's; only
`BEGIN` and `SET_MODE` change the registry; `SET_MODE` changes the mode cache alone; and a command in progress
changes nothing of it. -/
def Obligations.OnlyBeginAndSetModeWriteTheRegistry : Prop :=
  (∀ (a : BusAddr) (next : AfterWait) (s : State), (pollOnce a next s).dev = s.dev) ∧
  ∀ (i : Instr) (s t : State), exec i s = .next t →
    t.dev.length = s.dev.length ∧
    (∀ k : Nat, (∀ u, unitOf i = some u → u.toNat ≠ k) → t.dev[k]? = s.dev[k]?) ∧
    ((∀ u a ma sh, i ≠ .begin u a ma sh) → (∀ u m, i ≠ .setMode u m) → t.dev = s.dev) ∧
    ∀ u m, i = .setMode u m →
      (t.dev[u.toNat]?).map (fun d => { d with operatingMode := 0 }) =
        (s.dev[u.toNat]?).map (fun d => { d with operatingMode := 0 })

/-- R21, R174 (a): every bus call of a command goes to the bus address of its unit's record, and every one
of `BEGIN` to its operand; every call of a command in progress goes to the address it waits at, which is its
record's (R147). -/
def Obligations.CallsGoToTheCommandsAddress : Prop :=
  (∀ (a : BusAddr) (next : AfterWait) (s : State), ∀ e ∈ newEvents s (pollOnce a next s),
    e.address = some a) ∧
  (∀ (i : Instr) (s t : State) (a : BusAddr) (next : AfterWait), exec i s = .next t →
    t.activity = .polling a next → s.activity = .idle → targetOf i s = some a) ∧
  ∀ (i : Instr) (s t : State), exec i s = .next t →
    ∀ e ∈ newEvents s t, e = .delay ∨ (e.address = targetOf i s ∧ e.address ≠ none)

/-- R32: which command reads and which writes each device register; the same of a step of a command in
progress. -/
def Obligations.CommandsTouchOnlyTheirRegisters : Prop :=
  (∀ (i : Instr) (s t : State), exec i s = .next t →
    ∀ (a : BusAddr) (r : Reg) (w : Word16),
      (BusEvent.read a r w ∈ newEvents s t → readBy r i = true) ∧
      (BusEvent.write a r w ∈ newEvents s t → writtenBy r i = true)) ∧
  ∀ (a b : BusAddr) (next : AfterWait) (s : State) (r : Reg) (w : Word16),
    (BusEvent.read b r w ∈ newEvents s (pollOnce a next s) →
      match next with
      | .waitConv => readBy r (.waitConv 0) = true
      | .getBusMv u => readBy r (.getBusMv u true) = true
      | .getShuntUv u => readBy r (.getShuntUv u true) = true) ∧
    (BusEvent.write b r w ∈ newEvents s (pollOnce a next s) → r = .config ∧ next ≠ .waitConv)

/-- R63, R31: whatever a step does, it only adds to the end of the bus trace and of the responses, at most
one response, and it does not change the parameters or the number of records. -/
def Obligations.StepsOnlyAddToThePorts : Prop :=
  ∀ s t : State, step s = .next t →
    (∃ es, t.trace = s.trace ++ es) ∧
    (∃ rs : List Response, t.responses = s.responses ++ rs ∧ rs.length ≤ 1) ∧
    t.params = s.params ∧ t.nUnits = s.nUnits

/-- R55, R50, R52, R53, R54: a register access is one transaction that names the register in one byte, by its
number of R17, and carries the word most significant byte first; a probe is an address-only transaction; no
transaction uses `read-byte`. That the end of a read's transaction stands last in the list is the model's
choice (log 14). -/
def Obligations.WordsCrossTheBusMostSignificantByteFirst : Prop :=
  (∀ w : Word16, wordOfBytes (firstByte w) (secondByte w) = w ∧
    (firstByte w).toNat = w.toNat / 256 ∧ (secondByte w).toNat = w.toNat % 256) ∧
  ([Reg.config, .shuntV, .busV, .power, .current, .calib, .maskEn].map Reg.number =
    [0, 1, 2, 3, 4, 5, 6]) ∧
  (∀ r : Reg, r.number.toNat ≤ 6) ∧
  (∀ (a : BusAddr) (r : Reg) (v : Word16),
    (BusEvent.write a r v).transport =
      [.beginTransaction a, .writeByte r.number, .writeWord (firstByte v) (secondByte v),
       .endTransaction] ∧
    ∃ b1 b2, (BusEvent.read a r v).transport =
      [.beginTransaction a, .writeByte r.number, .readWord b1 b2, .endTransaction] ∧
      wordOfBytes b1 b2 = v) ∧
  (∀ (a : BusAddr) (b : Bool),
    (BusEvent.probe a b).transport = [.beginTransaction a, .endTransaction]) ∧
  ∀ (tr : List BusEvent) (b : Byte), TransportOp.readByte b ∉ transportOf tr

/-- R44, R57: the latched transport status is never read, by no command and by no step: two states that
differ in it alone give the same bus calls, responses and next states, but for it. -/
def Obligations.BusStatusIsNeverRead : Prop :=
  ∀ (s : State) (b : BusStatus),
    (∀ i : Instr, ∃ t t', exec i s = .next t ∧ exec i { s with busStatus := b } = .next t' ∧
      sameButBusStatus t t') ∧
    ∃ t t', step s = .next t ∧ step { s with busStatus := b } = .next t' ∧ sameButBusStatus t t'

/-- R31, R195: nothing observed so far is read: earlier responses and bus calls do not change what a
command does, nor what a step does. -/
def Obligations.EarlierResponsesAndCallsAreNeverRead : Prop :=
  ∀ s s' : State, sameButObservations s s' →
    (∀ i : Instr, ∃ t t', exec i s = .next t ∧ exec i s' = .next t' ∧ sameButObservations t t' ∧
      newEvents s t = newEvents s' t' ∧ newResponses s t = newResponses s' t') ∧
    ∃ t t', step s = .next t ∧ step s' = .next t' ∧ sameButObservations t t' ∧
      newEvents s t = newEvents s' t' ∧ newResponses s t = newResponses s' t'

/-- R11, R26, R45: the reset state has the invariant. That its parameters are legal rests on the values the
model gives them there (PRESUMED, log 2), and its three records on log 3. -/
def Obligations.ResetStateHasTheInvariant : Prop := State.reset.Inv

/-- R26, and R11, R20, R156: every step keeps the invariant: each record is unpopulated or holds the triple
of one `Derive`, never a mixture; the parameters stay legal; a command in progress names a record. -/
def Obligations.StepKeepsTheInvariant : Prop :=
  ∀ s t : State, s.Inv → step s = .next t → t.Inv

/-- R46: every state that any commands, any environment answers, any legal parameters, any legal number of
records and any reset signal lead to from reset keeps the stored fields in their ranges. -/
def Obligations.ReachableStatesKeepTheFieldsInRange : Prop :=
  ∀ (p : Config.Params) (k : Nat) (cs : List CmdWord) (e : Env) (l : List ResetSignal) (n : Nat) (t : State),
    p.valid = true → 1 ≤ k → k ≤ 4 →
    Host.Core.run core n
        { State.reset with params := p, dev := List.replicate k DeviceRecord.zero, commands := cs
                           env := e, resetLine := l } =
      .next t →
    ∀ d ∈ t.dev, d.inRange

/-- R46 as every step keeps it: from any state whose records are in the ranges, reachable or not; and the
reset state is one. -/
def Obligations.StepKeepsTheFieldsInRange : Prop :=
  (∀ d ∈ State.reset.dev, d.inRange) ∧
  ∀ s t : State, (∀ d ∈ s.dev, d.inRange) → step s = .next t → ∀ d ∈ t.dev, d.inRange

/-! ### What the device is left with (under R38, R39) -/

/-- R27: after `SET_MODE` the cached mode bits are those of the configuration word last written; after a
successful `BEGIN` they are 0b111, those of `CONFIG_DEFAULT`, which the device was just seen to hold. Then
too the device's mode and its calibration are known to be those of the record: that is about a device that
took every write, obeys R39 and has no other writer, the assumption of log 15; that it holds a written word as
written, and keeps `CONFIG` over the write of `CALIB`, is the model's choice (log 21). -/
def Obligations.ModeCacheAgreesAfterSetModeAndBegin : Prop :=
  (∀ (u : UnitId) (m : Word16) (s t : State) (d : DeviceRecord), exec (.setMode u m) s = .next t →
    t.dev[u.toNat]? = some d →
    (lastConfigWritten d.busAddress t.trace).map configMode = some (d.operatingMode.extractLsb' 0 3)) ∧
  ∀ (u : UnitId) (addr : BusAddr) (ma : Word16) (sh : Word32) (s t : State) (d : DeviceRecord)
    (a : BusAddr) (v : Word16),
    s.params.valid = true → exec (.begin u addr ma sh) s = .next t →
    BusEvent.write a .calib v ∈ newEvents s t → t.dev[u.toNat]? = some d →
    d.operatingMode.extractLsb' 0 3 = 0b111#3 ∧ d.busAddress = addr ∧
    BusEvent.read addr .config s.params.configDefault ∈ newEvents s t ∧
    modeCacheInStep t.params d t.trace = true ∧ calibrationInStep d t.trace = true

/-- R145, R222, R223: `RESET` leaves the record as it was while the device has lost its calibration and is
back at `CONFIG_DEFAULT`; so the calibration is out of step, and the mode cache too unless it says
0b111. This is about a device that took every write, obeys R39 and has no other writer, the assumption of log
15, by which an unknown calibration counts as out of step; that a device in the reserved code 000 or in
power-down obeys R39 is the model's choice (log 20). -/
def Obligations.ResetLeavesTheRecordOutOfStep : Prop :=
  ∀ (u : UnitId) (s t : State) (d : DeviceRecord), s.params.valid = true →
    s.dev[u.toNat]? = some d → exec (.reset u) s = .next t →
    t.dev = s.dev ∧ calibHeld d.busAddress t.trace = none ∧
    configHeld t.params d.busAddress t.trace = some t.params.configDefault ∧
    calibrationInStep d t.trace = false ∧
    (modeCacheInStep t.params d t.trace = true ↔ d.operatingMode.extractLsb' 0 3 = 0b111#3)

/-- R38, R61 (a), R160, R226: each setter of a `CONFIG` field starts exactly one conversion in its device,
also where it writes back what it read; `RESET` writes `CONFIG` once, and so does `BEGIN` once its probe is
acknowledged, and these writes count like any other (R38: "whenever its configuration register is written");
a voltage read starts one exactly when it comes to its re-trigger; no other device is touched. The count is
of the writes of the trace under the assumption of log 15 that each took effect; that it holds of a device in
the reserved code 000 or in power-down is the model's choice (log 20). -/
def Obligations.EveryConfigurationWriteStartsOneConversion : Prop :=
  ∀ (u : UnitId) (x : Word16) (s t : State) (d : DeviceRecord), s.dev[u.toNat]? = some d →
    (∀ i ∈ [Instr.setMode u x, .setAvg u x, .setBusCt u x, .setShuntCt u x, .reset u],
      exec i s = .next t →
        conversionsStarted d.busAddress t.trace = conversionsStarted d.busAddress s.trace + 1 ∧
        ∀ b, b ≠ d.busAddress → conversionsStarted b t.trace = conversionsStarted b s.trace) ∧
    (exec (.getBusMv u false) s = .next t →
      conversionsStarted d.busAddress t.trace =
        conversionsStarted d.busAddress s.trace + (if retriggersBus d.operatingMode then 1 else 0)) ∧
    (exec (.getShuntUv u false) s = .next t →
      conversionsStarted d.busAddress t.trace =
        conversionsStarted d.busAddress s.trace + (if retriggersShunt d.operatingMode then 1 else 0)) ∧
    (exec (.getBusMv u true) s = .next t →
      conversionsStarted d.busAddress t.trace =
        conversionsStarted d.busAddress s.trace +
          (if t.activity = .idle ∧ retriggersBus d.operatingMode = true then 1 else 0)) ∧
    (exec (.getShuntUv u true) s = .next t →
      conversionsStarted d.busAddress t.trace =
        conversionsStarted d.busAddress s.trace +
          (if t.activity = .idle ∧ retriggersShunt d.operatingMode = true then 1 else 0)) ∧
    (∀ a, t = pollOnce a (.getBusMv u) s →
      conversionsStarted a t.trace = conversionsStarted a s.trace +
        (if t.activity = .idle ∧ retriggersBus d.operatingMode = true then 1 else 0)) ∧
    (∀ a, t = pollOnce a (.getShuntUv u) s →
      conversionsStarted a t.trace = conversionsStarted a s.trace +
        (if t.activity = .idle ∧ retriggersShunt d.operatingMode = true then 1 else 0)) ∧
    (∀ addr ma sh, exec (.begin u addr ma sh) s = .next t →
      conversionsStarted addr t.trace = conversionsStarted addr s.trace +
        (if BusEvent.probe addr true ∈ newEvents s t then 1 else 0) ∧
      ∀ b, b ≠ addr → conversionsStarted b t.trace = conversionsStarted b s.trace) ∧
    ∀ i ∈ [Instr.getCurUa u, .getPwrUw u, .waitConv u],
      exec i s = .next t →
        conversionsStarted d.busAddress t.trace = conversionsStarted d.busAddress s.trace
end

