-- ==== Sys2Proof/Laws/Decode.lean ====
section
/-! SUPPORT. The command word as its seven fields: taking it apart and putting it together are inverse, and
putting together commutes with AND, so that a mask test is a test field by field. -/

namespace Sys2Proof

/-- One bit of a word, from its fields (R75). -/
theorem toWord_getLsbD (x : Fields) (i : Nat) :
    x.toWord.getLsbD i =
      if i < 32 then x.imm32.getLsbD i
      else if i < 48 then x.imm16.getLsbD (i - 32)
      else if i < 49 then x.z.getLsbD (i - 48)
      else if i < 56 then x.addr.getLsbD (i - 49)
      else if i < 58 then x.unit.getLsbD (i - 56)
      else if i < 59 then x.f.getLsbD (i - 58)
      else x.op.getLsbD (i - 59) := by
  simp only [Fields.toWord, BitVec.getLsbD_append]
  split_ifs <;> first | omega | rfl

/-- A word is the concatenation of its fields (R75). -/
theorem toWord_fieldsOfWord (w : CmdWord) : (fieldsOfWord w).toWord = w := by
  apply BitVec.eq_of_getLsbD_eq
  intro i hi
  rw [toWord_getLsbD]
  simp only [fieldsOfWord, BitVec.getLsbD_extractLsb']
  split_ifs
  all_goals rw [decide_eq_true (by omega), Bool.true_and]; congr 1; omega

/-- The fields of a concatenation are what was concatenated (R75). -/
theorem fieldsOfWord_toWord (x : Fields) : fieldsOfWord x.toWord = x := by
  have bit (lo n : Nat) (v : BitVec n)
      (h : ∀ i < n, x.toWord.getLsbD (lo + i) = v.getLsbD i) : x.toWord.extractLsb' lo n = v := by
    apply BitVec.eq_of_getLsbD_eq
    intro i hi
    rw [BitVec.getLsbD_extractLsb', decide_eq_true hi, Bool.true_and, h i hi]
  cases x with
  | mk op f unit addr z imm16 imm32 =>
    simp only [fieldsOfWord, Fields.mk.injEq]
    refine ⟨bit _ _ _ ?_, bit _ _ _ ?_, bit _ _ _ ?_, bit _ _ _ ?_, bit _ _ _ ?_, bit _ _ _ ?_,
      bit _ _ _ ?_⟩
    all_goals
      intro i hi
      rw [toWord_getLsbD]
      split_ifs <;> first | omega | (congr 1; omega)

/-- Words with equal concatenations have equal fields. -/
theorem toWord_inj {x y : Fields} : x.toWord = y.toWord ↔ x = y :=
  ⟨fun h => by rw [← fieldsOfWord_toWord x, h, fieldsOfWord_toWord], fun h => by rw [h]⟩

/-- AND field by field. -/
def Fields.land (x y : Fields) : Fields :=
  ⟨x.op &&& y.op, x.f &&& y.f, x.unit &&& y.unit, x.addr &&& y.addr, x.z &&& y.z, x.imm16 &&& y.imm16,
    x.imm32 &&& y.imm32⟩

/-- The AND of two words is the concatenation of their fields' ANDs. -/
theorem toWord_and (x y : Fields) : x.toWord &&& y.toWord = (x.land y).toWord := by
  apply BitVec.eq_of_getLsbD_eq
  intro i hi
  rw [BitVec.getLsbD_and, toWord_getLsbD, toWord_getLsbD, toWord_getLsbD]
  simp only [Fields.land]
  split_ifs <;> simp only [BitVec.getLsbD_and]

/-- A mask test of a word (R78), as a test of its fields. -/
theorem and_mask_eq_iff (w : CmdWord) (mask pattern : Fields) :
    w &&& mask.toWord = pattern.toWord ↔ (fieldsOfWord w).land mask = pattern := by
  conv_lhs => rw [← toWord_fieldsOfWord w, toWord_and, toWord_inj]

end Sys2Proof
end

