-- ==== Sys2Proof/Laws/State.lean ====
section
/-! SUPPORT. One lemma per field per named update of the state, so that no proof unfolds a record update. -/

namespace Sys2Proof.Machine

@[simp] theorem regRead_params (a : BusAddr) (r : Reg) (s : State) :
    (regRead a r s).params = s.params := rfl
@[simp] theorem regRead_dev (a : BusAddr) (r : Reg) (s : State) :
    (regRead a r s).dev = s.dev := rfl
@[simp] theorem regRead_busStatus (a : BusAddr) (r : Reg) (s : State) :
    (regRead a r s).busStatus = s.transportStatus := rfl
@[simp] theorem regRead_activity (a : BusAddr) (r : Reg) (s : State) :
    (regRead a r s).activity = s.activity := rfl
@[simp] theorem regRead_commands (a : BusAddr) (r : Reg) (s : State) :
    (regRead a r s).commands = s.commands := rfl
@[simp] theorem regRead_responses (a : BusAddr) (r : Reg) (s : State) :
    (regRead a r s).responses = s.responses := rfl
@[simp] theorem regRead_trace (a : BusAddr) (r : Reg) (s : State) :
    (regRead a r s).trace = s.trace ++ [.read a r s.readAnswer] := rfl
@[simp] theorem regRead_env (a : BusAddr) (r : Reg) (s : State) :
    (regRead a r s).env = { s.env with reads := s.env.reads.tail, draws := s.env.draws + 1 } := rfl
@[simp] theorem regRead_resetLine (a : BusAddr) (r : Reg) (s : State) :
    (regRead a r s).resetLine = s.resetLine := rfl

@[simp] theorem regWrite_params (a : BusAddr) (r : Reg) (v : Word16) (s : State) :
    (regWrite a r v s).params = s.params := rfl
@[simp] theorem regWrite_dev (a : BusAddr) (r : Reg) (v : Word16) (s : State) :
    (regWrite a r v s).dev = s.dev := rfl
@[simp] theorem regWrite_busStatus (a : BusAddr) (r : Reg) (v : Word16) (s : State) :
    (regWrite a r v s).busStatus = s.transportStatus := rfl
@[simp] theorem regWrite_activity (a : BusAddr) (r : Reg) (v : Word16) (s : State) :
    (regWrite a r v s).activity = s.activity := rfl
@[simp] theorem regWrite_commands (a : BusAddr) (r : Reg) (v : Word16) (s : State) :
    (regWrite a r v s).commands = s.commands := rfl
@[simp] theorem regWrite_responses (a : BusAddr) (r : Reg) (v : Word16) (s : State) :
    (regWrite a r v s).responses = s.responses := rfl
@[simp] theorem regWrite_trace (a : BusAddr) (r : Reg) (v : Word16) (s : State) :
    (regWrite a r v s).trace = s.trace ++ [.write a r v] := rfl
@[simp] theorem regWrite_env (a : BusAddr) (r : Reg) (v : Word16) (s : State) :
    (regWrite a r v s).env = { s.env with draws := s.env.draws + 1 } := rfl
@[simp] theorem regWrite_resetLine (a : BusAddr) (r : Reg) (v : Word16) (s : State) :
    (regWrite a r v s).resetLine = s.resetLine := rfl

@[simp] theorem probe_params (a : BusAddr) (s : State) :
    (probe a s).params = s.params := rfl
@[simp] theorem probe_dev (a : BusAddr) (s : State) :
    (probe a s).dev = s.dev := rfl
@[simp] theorem probe_busStatus (a : BusAddr) (s : State) :
    (probe a s).busStatus = { s.transportStatus with acked := s.probeAnswer } := rfl
@[simp] theorem probe_activity (a : BusAddr) (s : State) :
    (probe a s).activity = s.activity := rfl
@[simp] theorem probe_commands (a : BusAddr) (s : State) :
    (probe a s).commands = s.commands := rfl
@[simp] theorem probe_responses (a : BusAddr) (s : State) :
    (probe a s).responses = s.responses := rfl
@[simp] theorem probe_trace (a : BusAddr) (s : State) :
    (probe a s).trace = s.trace ++ [.probe a s.probeAnswer] := rfl
@[simp] theorem probe_env (a : BusAddr) (s : State) :
    (probe a s).env = { s.env with probes := s.env.probes.tail, draws := s.env.draws + 1 } := rfl
@[simp] theorem probe_resetLine (a : BusAddr) (s : State) :
    (probe a s).resetLine = s.resetLine := rfl

@[simp] theorem delay_params (s : State) :
    (delay s).params = s.params := rfl
@[simp] theorem delay_dev (s : State) :
    (delay s).dev = s.dev := rfl
@[simp] theorem delay_busStatus (s : State) :
    (delay s).busStatus = s.busStatus := rfl
@[simp] theorem delay_activity (s : State) :
    (delay s).activity = s.activity := rfl
@[simp] theorem delay_commands (s : State) :
    (delay s).commands = s.commands := rfl
@[simp] theorem delay_responses (s : State) :
    (delay s).responses = s.responses := rfl
@[simp] theorem delay_trace (s : State) :
    (delay s).trace = s.trace ++ [.delay] := rfl
@[simp] theorem delay_env (s : State) :
    (delay s).env = s.env := rfl
@[simp] theorem delay_resetLine (s : State) :
    (delay s).resetLine = s.resetLine := rfl

@[simp] theorem respond_params (r : Response) (s : State) :
    (respond r s).params = s.params := rfl
@[simp] theorem respond_dev (r : Response) (s : State) :
    (respond r s).dev = s.dev := rfl
@[simp] theorem respond_busStatus (r : Response) (s : State) :
    (respond r s).busStatus = s.busStatus := rfl
@[simp] theorem respond_activity (r : Response) (s : State) :
    (respond r s).activity = .idle := rfl
@[simp] theorem respond_commands (r : Response) (s : State) :
    (respond r s).commands = s.commands := rfl
@[simp] theorem respond_responses (r : Response) (s : State) :
    (respond r s).responses = s.responses ++ [r] := rfl
@[simp] theorem respond_trace (r : Response) (s : State) :
    (respond r s).trace = s.trace := rfl
@[simp] theorem respond_env (r : Response) (s : State) :
    (respond r s).env = s.env := rfl
@[simp] theorem respond_resetLine (r : Response) (s : State) :
    (respond r s).resetLine = s.resetLine := rfl

@[simp] theorem setDev_params (u : UnitId) (d : DeviceRecord) (s : State) :
    (setDev u d s).params = s.params := rfl
@[simp] theorem setDev_dev (u : UnitId) (d : DeviceRecord) (s : State) :
    (setDev u d s).dev = s.dev.set u.toNat d := rfl
@[simp] theorem setDev_busStatus (u : UnitId) (d : DeviceRecord) (s : State) :
    (setDev u d s).busStatus = s.busStatus := rfl
@[simp] theorem setDev_activity (u : UnitId) (d : DeviceRecord) (s : State) :
    (setDev u d s).activity = s.activity := rfl
@[simp] theorem setDev_commands (u : UnitId) (d : DeviceRecord) (s : State) :
    (setDev u d s).commands = s.commands := rfl
@[simp] theorem setDev_responses (u : UnitId) (d : DeviceRecord) (s : State) :
    (setDev u d s).responses = s.responses := rfl
@[simp] theorem setDev_trace (u : UnitId) (d : DeviceRecord) (s : State) :
    (setDev u d s).trace = s.trace := rfl
@[simp] theorem setDev_env (u : UnitId) (d : DeviceRecord) (s : State) :
    (setDev u d s).env = s.env := rfl
@[simp] theorem setDev_resetLine (u : UnitId) (d : DeviceRecord) (s : State) :
    (setDev u d s).resetLine = s.resetLine := rfl

@[simp] theorem keepPolling_params (a : BusAddr) (next : AfterWait) (s : State) :
    (keepPolling a next s).params = s.params := rfl
@[simp] theorem keepPolling_dev (a : BusAddr) (next : AfterWait) (s : State) :
    (keepPolling a next s).dev = s.dev := rfl
@[simp] theorem keepPolling_busStatus (a : BusAddr) (next : AfterWait) (s : State) :
    (keepPolling a next s).busStatus = s.busStatus := rfl
@[simp] theorem keepPolling_activity (a : BusAddr) (next : AfterWait) (s : State) :
    (keepPolling a next s).activity = .polling a next := rfl
@[simp] theorem keepPolling_commands (a : BusAddr) (next : AfterWait) (s : State) :
    (keepPolling a next s).commands = s.commands := rfl
@[simp] theorem keepPolling_responses (a : BusAddr) (next : AfterWait) (s : State) :
    (keepPolling a next s).responses = s.responses := rfl
@[simp] theorem keepPolling_trace (a : BusAddr) (next : AfterWait) (s : State) :
    (keepPolling a next s).trace = s.trace := rfl
@[simp] theorem keepPolling_env (a : BusAddr) (next : AfterWait) (s : State) :
    (keepPolling a next s).env = s.env := rfl
@[simp] theorem keepPolling_resetLine (a : BusAddr) (next : AfterWait) (s : State) :
    (keepPolling a next s).resetLine = s.resetLine := rfl

@[simp] theorem hardReset_params (s : State) :
    (hardReset s).params = s.params := rfl
@[simp] theorem hardReset_dev (s : State) :
    (hardReset s).dev = s.dev.map fun _ => DeviceRecord.zero := rfl
@[simp] theorem hardReset_busStatus (s : State) :
    (hardReset s).busStatus = s.transportStatus := rfl
@[simp] theorem hardReset_activity (s : State) :
    (hardReset s).activity = .idle := rfl
@[simp] theorem hardReset_commands (s : State) :
    (hardReset s).commands = s.commands := rfl
@[simp] theorem hardReset_responses (s : State) :
    (hardReset s).responses = s.responses := rfl
@[simp] theorem hardReset_trace (s : State) :
    (hardReset s).trace = s.trace := rfl
@[simp] theorem hardReset_env (s : State) :
    (hardReset s).env = { s.env with draws := s.env.draws + 1 } := rfl
@[simp] theorem hardReset_resetLine (s : State) :
    (hardReset s).resetLine = s.resetLine := rfl

@[simp] theorem nextSignal_params (s : State) :
    (nextSignal s).params = s.params := rfl
@[simp] theorem nextSignal_dev (s : State) :
    (nextSignal s).dev = s.dev := rfl
@[simp] theorem nextSignal_busStatus (s : State) :
    (nextSignal s).busStatus = s.busStatus := rfl
@[simp] theorem nextSignal_activity (s : State) :
    (nextSignal s).activity = s.activity := rfl
@[simp] theorem nextSignal_commands (s : State) :
    (nextSignal s).commands = s.commands := rfl
@[simp] theorem nextSignal_responses (s : State) :
    (nextSignal s).responses = s.responses := rfl
@[simp] theorem nextSignal_trace (s : State) :
    (nextSignal s).trace = s.trace := rfl
@[simp] theorem nextSignal_env (s : State) :
    (nextSignal s).env = s.env := rfl
@[simp] theorem nextSignal_resetLine (s : State) :
    (nextSignal s).resetLine = s.resetLine.tail := rfl

@[simp] theorem done_eq_respond (s : State) :
    done s = respond { status := .ok, res0 := 0, res1 := 0, res2 := 0 } s := rfl
@[simp] theorem done0_eq_respond (v : Word32) (s : State) :
    done0 v s = respond { status := .ok, res0 := v, res1 := 0, res2 := 0 } s := rfl
@[simp] theorem raise_eq_respond (e : Status) (s : State) :
    raise e s = respond { status := e, res0 := 0, res1 := 0, res2 := 0 } s := rfl

end Sys2Proof.Machine
end

