-- ==== Sys2Proof/Laws/Ops.lean ====
section
/-! SUPPORT. One lemma per shared operation that says what it can do, for later proofs to cite instead of
unfolding it. -/

namespace Sys2Proof.Machine

/-- The unit lookup on a record that exists. -/
theorem withUnit_some {u : UnitId} {s : State} {d : DeviceRecord} (h : s.dev[u.toNat]? = some d)
    (k : DeviceRecord → State) : withUnit u s k = k d := by
  simp [withUnit, h]

/-- The unit lookup on a unit that names no record. -/
theorem withUnit_none {u : UnitId} {s : State} (h : s.dev[u.toNat]? = none)
    (k : DeviceRecord → State) : withUnit u s k = raise .errUnit s := by
  simp [withUnit, h]

/-- Everything the unit lookup can do. -/
theorem withUnit_cases (u : UnitId) (s : State) (k : DeviceRecord → State) :
    (∃ d, s.dev[u.toNat]? = some d ∧ withUnit u s k = k d) ∨
      (s.nUnits ≤ u.toNat ∧ s.dev[u.toNat]? = none ∧ withUnit u s k = raise .errUnit s) := by
  cases h : s.dev[u.toNat]? with
  | some d => exact .inl ⟨d, rfl, withUnit_some h k⟩
  | none => exact .inr ⟨List.getElem?_eq_none_iff.mp h, rfl, withUnit_none h k⟩

/-- What a read-modify-write leaves: its two calls, and the environment two draws on. -/
theorem rmw_eq (a : BusAddr) (r : Reg) (clear set : Word16) (s : State) :
    rmw a r clear set s =
      { s with
        busStatus := (regRead a r s).transportStatus
        trace := s.trace ++ [.read a r s.readAnswer, .write a r (rmwWord clear set s.readAnswer)]
        env := { s.env with reads := s.env.reads.tail, draws := s.env.draws + 2 } } := by
  simp [rmw, regWrite, regRead, List.append_assoc]

/-- A read-modify-write with empty masks writes back what it read (R160). -/
@[simp] theorem rmwWord_zero (c : Word16) : rmwWord 0#16 0#16 c = c := by
  ext i hi
  simp only [rmwWord, BitVec.getElem_or, BitVec.getElem_and, BitVec.getElem_not, BitVec.getElem_zero,
    Bool.not_false, Bool.and_true, Bool.or_false]

/-- Bit by bit, a read-modify-write keeps what neither mask names (R130). -/
theorem rmwWord_getLsbD (clear set c : Word16) (k : Nat) (hk : k < 16) :
    (rmwWord clear set c).getLsbD k = ((c.getLsbD k && !clear.getLsbD k) || set.getLsbD k) := by
  simp [rmwWord, hk]

/-- The re-trigger: one read and one write of the same word (R160). -/
theorem retrigger_eq (a : BusAddr) (s : State) :
    retrigger a s =
      { s with
        busStatus := (regRead a .config s).transportStatus
        trace := s.trace ++ [.read a .config s.readAnswer, .write a .config s.readAnswer]
        env := { s.env with reads := s.env.reads.tail, draws := s.env.draws + 2 } } := by
  simp [retrigger, rmw_eq]

/-- Everything one poll can do (R147): go on waiting, or leave the loop on a word with the ready bit. -/
theorem pollOnce_cases (a : BusAddr) (next : AfterWait) (s : State) :
    (conversionReady s.params s.readAnswer = false ∧
        pollOnce a next s = keepPolling a next (regRead a .maskEn s)) ∨
      (conversionReady s.params s.readAnswer = true ∧
        pollOnce a next s = afterWait a next (regRead a .maskEn s)) := by
  cases h : conversionReady s.params s.readAnswer <;> simp [pollOnce, h]

/-- `Derive` succeeds exactly when the divisor is not 0, and then with these three values (R100). -/
theorem deriveCoefficients_eq_some_iff (ma : Word16) (sh : Word32) (c : Coefficients) :
    deriveCoefficients ma sh = some c ↔
      divisorOf ma sh ≠ 0 ∧
        c = ⟨BitVec.ofNat 32 (clsbOf ma), BitVec.ofNat 16 (quotientOf ma sh),
          BitVec.ofNat 32 (plsbOf ma)⟩ := by
  unfold deriveCoefficients
  split
  · simp_all
  · simp_all [eq_comm]

/-- `Derive` fails exactly on a zero divisor (R109). -/
theorem deriveCoefficients_eq_none_iff (ma : Word16) (sh : Word32) :
    deriveCoefficients ma sh = none ↔ divisorOf ma sh = 0 := by
  unfold deriveCoefficients
  split <;> simp_all

/-- Everything taking a command word can do. -/
theorem takeCommand_cases (s : State) :
    (s.commands = [] ∧ takeCommand s = none) ∨
      ∃ w rest, s.commands = w :: rest ∧ takeCommand s = some (w, { s with commands := rest }) := by
  cases h : s.commands with
  | nil => exact .inl ⟨rfl, by simp [takeCommand, h]⟩
  | cons w rest => exact .inr ⟨w, rest, rfl, by simp [takeCommand, h]⟩

/-- Everything the sequencer's step can do: poll, wait for a word, run a command, answer an illegal
word. -/
theorem advance_cases (s : State) :
    (∃ a next, s.activity = .polling a next ∧ advance s = .next (pollOnce a next s)) ∨
      (s.activity = .idle ∧ s.commands = [] ∧ advance s = .next s) ∨
      (∃ w rest i, s.activity = .idle ∧ s.commands = w :: rest ∧ decode w = .ok i ∧
        advance s = exec i { s with commands := rest }) ∨
      ∃ w rest e, s.activity = .idle ∧ s.commands = w :: rest ∧ decode w = .error e ∧
        advance s = .next (raise .errIllegal { s with commands := rest }) := by
  cases ha : s.activity with
  | polling a next => exact .inl ⟨a, next, rfl, by simp [advance, ha]⟩
  | idle =>
    rcases takeCommand_cases s with ⟨hc, ht⟩ | ⟨w, rest, hc, ht⟩
    · exact .inr (.inl ⟨rfl, hc, by simp [advance, ha, ht]⟩)
    · cases hd : decode w with
      | ok i => exact .inr (.inr (.inl ⟨w, rest, i, rfl, hc, hd, by simp [advance, ha, ht, runWord, hd]⟩))
      | error e =>
        exact .inr (.inr (.inr ⟨w, rest, e, rfl, hc, hd, by simp [advance, ha, ht, runWord, hd]⟩))

/-- With nothing on the reset line the signal is low and taking it in changes nothing. -/
theorem resetLine_nil {s : State} (h : s.resetLine = []) : s.resetSignal = .low ∧ nextSignal s = s := by
  obtain ⟨_, _, _, _, _, _, _, _, l⟩ := s
  subst h
  exact ⟨rfl, rfl⟩

/-- Everything the reset signal can do to a step: let it be, take its place, or end it inside. -/
theorem step_cases (s : State) :
    (s.resetSignal = .low ∧ step s = advance (nextSignal s)) ∨
      (s.resetSignal = .before ∧ step s = .next (hardReset (nextSignal s))) ∨
      ∃ n, s.resetSignal = .inside n ∧
        step s = mapNext (abandonAfter n (nextSignal s)) (advance (nextSignal s)) := by
  cases h : s.resetSignal with
  | low => exact .inl ⟨rfl, by simp [step, h]⟩
  | before => exact .inr (.inl ⟨rfl, by simp [step, h]⟩)
  | inside n => exact .inr (.inr ⟨n, rfl, by simp [step, h]⟩)

/-- A step without reset is the sequencer's. -/
theorem step_of_resetLine_nil {s : State} (h : s.resetLine = []) : step s = advance s := by
  simp [step, (resetLine_nil h).1, (resetLine_nil h).2]

/-- What an abandoned command leaves (R211). -/
theorem abandonAfter_fields (n : Nat) (s t : State) :
    (abandonAfter n s t).trace = s.trace ++ (t.trace.drop s.trace.length).take n ∧
      (abandonAfter n s t).responses = s.responses ∧
      (abandonAfter n s t).dev = (s.dev.map fun _ => DeviceRecord.zero) ∧
      (abandonAfter n s t).activity = .idle ∧ (abandonAfter n s t).params = s.params ∧
      (abandonAfter n s t).commands = t.commands ∧ (abandonAfter n s t).resetLine = s.resetLine :=
  ⟨rfl, rfl, rfl, rfl, rfl, rfl, rfl⟩

end Sys2Proof.Machine
end

