-- ==== Sys2Proof/Laws/Commands.lean ====
section
/-! SUPPORT. What the commands that do several things can do, said once: `BEGIN`, the end of a waiting read;
and the environment's answers in the numbering the statements use. -/

namespace Sys2Proof.Machine

/-- The encoding of a command is its fields' (R75, R76). -/
theorem encodedAs_iff (i : Instr) (op : BitVec 5) (fmt : Format) :
    encodedAs i op fmt ↔ i.fields.op = op ∧ formatOf op = some fmt := by
  rw [encodedAs, encode, fieldsOfWord_toWord]

/-- The next answer is answer 0. -/
theorem readAnswer_eq_answerAt (s : State) : s.readAnswer = s.answerAt 0 0 := rfl

/-- Answers count on past a read. -/
theorem answerAt_regRead (a : BusAddr) (r : Reg) (s : State) (k n : Nat) :
    (regRead a r s).answerAt k n = s.answerAt (k + 1) (n + 1) := by
  simp [State.answerAt, Nat.add_assoc, Nat.add_comm 1]

/-- A command that waits polls (R148). -/
theorem step_polling {s : State} {a : BusAddr} {next : AfterWait} (h : s.activity = .polling a next)
    (hl : s.resetLine = []) : step s = .next (pollOnce a next s) := by
  simp [step_of_resetLine_nil hl, advance, h]

/-- A run takes its first step first. -/
theorem run_succ_of_step {s t : State} (n : Nat) (h : step s = .next t) :
    Host.Core.run core (n + 1) s = Host.Core.run core n t := by
  have : core.step s = .next t := h
  simp only [Host.Core.run, this]

/-- A unit below `N_UNITS` names a record (R20). -/
theorem exists_record {s : State} {u : UnitId} (h : u.toNat < s.nUnits) :
    ∃ d, s.dev[u.toNat]? = some d :=
  ⟨_, List.getElem?_eq_getElem h⟩

/-- R100 step 1 under its name. Rewrite with this and the next three rather than unfold: the kernel should
not evaluate these divisions on variables. -/
theorem clsbOf_fold (ma : Word16) : ma.toNat * 1000000 / 32767 = clsbOf ma := by rw [clsbOf]

/-- R100 step 2a under its name. -/
theorem divisorOf_fold (ma : Word16) (sh : Word32) : clsbOf ma * sh.toNat / 100000 = divisorOf ma sh := by
  rw [divisorOf]

/-- R100 step 2b under its name. -/
theorem quotientOf_fold (ma : Word16) (sh : Word32) : 51200000 / divisorOf ma sh = quotientOf ma sh := by
  rw [quotientOf]

/-- R100 step 3 under its name. -/
theorem plsbOf_fold (ma : Word16) : clsbOf ma * 25 = plsbOf ma := by rw [plsbOf]

/-- Everything `DERIVE` can do (R101). -/
theorem exec_derive_cases (ma : Word16) (sh : Word32) (s : State) :
    (divisorOf ma sh = 0 ∧ exec (.derive ma sh) s = .next (raise .errDiv0 s)) ∨
      ∃ c, deriveCoefficients ma sh = some c ∧
        exec (.derive ma sh) s =
          .next (respond { status := .ok, res0 := c.clsb, res1 := c.plsb, res2 := c.cal } s) := by
  rw [exec, execDerive]
  cases hc : deriveCoefficients ma sh with
  | none => exact .inl ⟨(deriveCoefficients_eq_none_iff ma sh).mp hc, rfl⟩
  | some c => exact .inr ⟨c, rfl, rfl⟩

/-- Everything `BEGIN` can do (R171): its two faults, or the probe and what follows it. -/
theorem exec_begin_cases (u : UnitId) (addr : BusAddr) (ma : Word16) (sh : Word32) (s : State) :
    (s.nUnits ≤ u.toNat ∧ exec (.begin u addr ma sh) s = .next (raise .errUnit s)) ∨
      (u.toNat < s.nUnits ∧ divisorOf ma sh = 0 ∧
        exec (.begin u addr ma sh) s = .next (raise .errDiv0 s)) ∨
      ∃ c, u.toNat < s.nUnits ∧ deriveCoefficients ma sh = some c ∧
        exec (.begin u addr ma sh) s = .next (probeAndPopulate u addr c s) := by
  rw [exec, execBegin]
  cases hd : s.dev[u.toNat]? with
  | none => exact .inl ⟨List.getElem?_eq_none_iff.mp hd, by rw [withUnit_none hd]⟩
  | some d =>
    have hu : u.toNat < s.nUnits := (List.getElem?_eq_some_iff.mp hd).1
    rw [withUnit_some hd]
    cases hc : deriveCoefficients ma sh with
    | none => exact .inr (.inl ⟨hu, (deriveCoefficients_eq_none_iff ma sh).mp hc, rfl⟩)
    | some c => exact .inr (.inr ⟨c, hu, rfl, rfl⟩)

/-- What `BEGIN` leaves on its silent path P1 (R171): one probe. -/
theorem probeAndPopulate_noAck {s : State} (u : UnitId) (addr : BusAddr) (c : Coefficients)
    (h : s.probeAnswer = false) : probeAndPopulate u addr c s = done (probe addr s) := by
  simp [probeAndPopulate, h]

/-- What `BEGIN` leaves once its probe is acknowledged (R171): four calls, and on the default word a
record and a fifth. -/
theorem probeAndPopulate_ack {s : State} (u : UnitId) (addr : BusAddr) (c : Coefficients)
    (h : s.probeAnswer = true) :
    (probeAndPopulate u addr c s).dev =
        (if s.answerAt 0 2 = s.params.configDefault then s.dev.set u.toNat (populatedRecord addr c)
         else s.dev) ∧
      (probeAndPopulate u addr c s).trace =
        s.trace ++ [.probe addr true, .write addr .config resetWord, .delay,
            .read addr .config (s.answerAt 0 2)] ++
          (if s.answerAt 0 2 = s.params.configDefault then [.write addr .calib c.cal] else []) ∧
      (probeAndPopulate u addr c s).responses =
        s.responses ++ [{ status := .ok, res0 := 0, res1 := 0, res2 := 0 }] := by
  have ha : (delay (regWrite addr .config resetWord (probe addr s))).readAnswer = s.answerAt 0 2 := by
    simp [State.readAnswer, State.answerAt]
  by_cases hc : s.answerAt 0 2 = s.params.configDefault <;>
    simp [probeAndPopulate, h, verifyAndPopulate, ha, hc]

/-- Conversions are counted piece by piece (R38). -/
theorem conversionsStarted_append (a : BusAddr) (l m : List BusEvent) :
    conversionsStarted a (l ++ m) = conversionsStarted a l + conversionsStarted a m := by
  simp [conversionsStarted, configWrites]

/-- What is known of `CALIB` goes on from what was known (R39, R61). -/
theorem calibHeld_append (a : BusAddr) (l m : List BusEvent) :
    calibHeld a (l ++ m) = m.foldl (calibAfter a) (calibHeld a l) := by
  simp [calibHeld, List.foldl_append]

/-- What is known of `CONFIG` goes on from what was known (R39, R61). -/
theorem configHeld_append (p : Config.Params) (a : BusAddr) (l m : List BusEvent) :
    configHeld p a (l ++ m) = m.foldl (configAfter p a) (configHeld p a l) := by
  simp [configHeld, List.foldl_append]

end Sys2Proof.Machine
end

