-- ==== Sys2Proof/Laws/PerInstr.lean ====
section
/-! SUPPORT. Per-instruction families: one lemma per constructor of `Instr`. -/


/-- The fields of the instruction obey its format: every field the format does not use is 0 (R76). -/
def Sys2Proof.Laws.FieldsWellFormed.Statement (i : Sys2Proof.Instr) : Prop :=
  i.wellFormed = true

namespace Sys2Proof.Laws.FieldsWellFormed

open Sys2Proof

theorem begin (u : UnitId) (a : BusAddr) (ma : Word16) (sh : Word32) : Statement (.begin u a ma sh) := rfl
theorem derive (ma : Word16) (sh : Word32) : Statement (.derive ma sh) := rfl
theorem scaleBus (raw : Word16) : Statement (.scaleBus raw) := rfl
theorem scaleShunt (raw : Word16) : Statement (.scaleShunt raw) := rfl
theorem scaleCur (u : UnitId) (raw : Word16) : Statement (.scaleCur u raw) := rfl
theorem scalePwr (u : UnitId) (raw : Word16) : Statement (.scalePwr u raw) := rfl
theorem setMode (u : UnitId) (m : Word16) : Statement (.setMode u m) := rfl
theorem setAvg (u : UnitId) (n : Word16) : Statement (.setAvg u n) := rfl
theorem setBusCt (u : UnitId) (k : Word16) : Statement (.setBusCt u k) := rfl
theorem setShuntCt (u : UnitId) (k : Word16) : Statement (.setShuntCt u k) := rfl
theorem reset (u : UnitId) : Statement (.reset u) := rfl
theorem waitConv (u : UnitId) : Statement (.waitConv u) := rfl
theorem setAlertCnvr (u : UnitId) (e : Bool) : Statement (.setAlertCnvr u e) := rfl
theorem getBusMv (u : UnitId) (f : Bool) : Statement (.getBusMv u f) := rfl
theorem getShuntUv (u : UnitId) (f : Bool) : Statement (.getShuntUv u f) := rfl
theorem getCurUa (u : UnitId) : Statement (.getCurUa u) := rfl
theorem getPwrUw (u : UnitId) : Statement (.getPwrUw u) := rfl
theorem getAddr (u : UnitId) : Statement (.getAddr u) := rfl
theorem getCal (u : UnitId) : Statement (.getCal u) := rfl
theorem getClsb (u : UnitId) : Statement (.getClsb u) := rfl
theorem getPlsb (u : UnitId) : Statement (.getPlsb u) := rfl
theorem getMode (u : UnitId) : Statement (.getMode u) := rfl

end Sys2Proof.Laws.FieldsWellFormed

/-- The opcode table has the instruction's row: its mnemonic, and its operands from its fields (R77,
R78). -/
def Sys2Proof.Laws.HasOpcodeRow.Statement (i : Sys2Proof.Instr) : Prop :=
  ∃ r, Sys2Proof.opcodeTable[i.fields.op.toNat - 1]? = some r ∧ r.mnemonic = i.mnemonic ∧
    r.build i.fields = i

namespace Sys2Proof.Laws.HasOpcodeRow

open Sys2Proof

theorem begin (u : UnitId) (a : BusAddr) (ma : Word16) (sh : Word32) : Statement (.begin u a ma sh) := ⟨_, rfl, rfl, rfl⟩
theorem derive (ma : Word16) (sh : Word32) : Statement (.derive ma sh) := ⟨_, rfl, rfl, rfl⟩
theorem scaleBus (raw : Word16) : Statement (.scaleBus raw) := ⟨_, rfl, rfl, rfl⟩
theorem scaleShunt (raw : Word16) : Statement (.scaleShunt raw) := ⟨_, rfl, rfl, rfl⟩
theorem scaleCur (u : UnitId) (raw : Word16) : Statement (.scaleCur u raw) := ⟨_, rfl, rfl, rfl⟩
theorem scalePwr (u : UnitId) (raw : Word16) : Statement (.scalePwr u raw) := ⟨_, rfl, rfl, rfl⟩
theorem setMode (u : UnitId) (m : Word16) : Statement (.setMode u m) := ⟨_, rfl, rfl, rfl⟩
theorem setAvg (u : UnitId) (n : Word16) : Statement (.setAvg u n) := ⟨_, rfl, rfl, rfl⟩
theorem setBusCt (u : UnitId) (k : Word16) : Statement (.setBusCt u k) := ⟨_, rfl, rfl, rfl⟩
theorem setShuntCt (u : UnitId) (k : Word16) : Statement (.setShuntCt u k) := ⟨_, rfl, rfl, rfl⟩
theorem reset (u : UnitId) : Statement (.reset u) := ⟨_, rfl, rfl, rfl⟩
theorem waitConv (u : UnitId) : Statement (.waitConv u) := ⟨_, rfl, rfl, rfl⟩
theorem setAlertCnvr (u : UnitId) (e : Bool) : Statement (.setAlertCnvr u e) := by
  cases e <;> exact ⟨_, rfl, rfl, rfl⟩
theorem getBusMv (u : UnitId) (f : Bool) : Statement (.getBusMv u f) := by
  cases f <;> exact ⟨_, rfl, rfl, rfl⟩
theorem getShuntUv (u : UnitId) (f : Bool) : Statement (.getShuntUv u f) := by
  cases f <;> exact ⟨_, rfl, rfl, rfl⟩
theorem getCurUa (u : UnitId) : Statement (.getCurUa u) := ⟨_, rfl, rfl, rfl⟩
theorem getPwrUw (u : UnitId) : Statement (.getPwrUw u) := ⟨_, rfl, rfl, rfl⟩
theorem getAddr (u : UnitId) : Statement (.getAddr u) := ⟨_, rfl, rfl, rfl⟩
theorem getCal (u : UnitId) : Statement (.getCal u) := ⟨_, rfl, rfl, rfl⟩
theorem getClsb (u : UnitId) : Statement (.getClsb u) := ⟨_, rfl, rfl, rfl⟩
theorem getPlsb (u : UnitId) : Statement (.getPlsb u) := ⟨_, rfl, rfl, rfl⟩
theorem getMode (u : UnitId) : Statement (.getMode u) := ⟨_, rfl, rfl, rfl⟩

end Sys2Proof.Laws.HasOpcodeRow
end

