-- ==== Sys2Proof/Machine/Assembler.lean ====
section
/-! DEFINITION. The assembler syntax of 30_encoding.md R85: one line per command. -/

namespace Sys2Proof.Machine

/-- The operands of a command in the order of R85, as numbers. -/
def operandsOf : Instr → List Nat
  | .begin u a ma sh => [u.toNat, a.toNat, ma.toNat, sh.toNat]
  | .derive ma sh => [ma.toNat, sh.toNat]
  | .scaleBus raw | .scaleShunt raw => [raw.toNat]
  | .scaleCur u v | .scalePwr u v | .setMode u v | .setAvg u v | .setBusCt u v | .setShuntCt u v =>
    [u.toNat, v.toNat]
  | .setAlertCnvr u f | .getBusMv u f | .getShuntUv u f => [u.toNat, f.toNat]
  | .reset u | .waitConv u | .getCurUa u | .getPwrUw u | .getAddr u | .getCal u | .getClsb u
  | .getPlsb u | .getMode u => [u.toNat]

/-- The line of a command: the mnemonic, then the operands in decimal, one of the spellings R85 admits
(DESIGN CHOICE: log 17). -/
def asm (i : Instr) : String :=
  i.mnemonic ++ " " ++ String.intercalate ", " ((operandsOf i).map toString)

/-- The names R85 lets the mode operand of `SET_MODE` be written with. -/
def ModeName.asm : ModeName → Option String
  | .trigShunt => some "TRIG_SHUNT"
  | .trigBus => some "TRIG_BUS"
  | .trigBoth => some "TRIG_BOTH"
  | .pwrDown => some "PWR_DOWN"
  | .contShunt => some "CONT_SHUNT"
  | .contBus => some "CONT_BUS"
  | .contBoth => some "CONT_BOTH"
  | .reserved => none

end Sys2Proof.Machine
end

