-- ==== Sys2Proof/Tests/Slice0.lean ====
section
/-! SUPPORT. The author's own tests. Words, answers and results are those of spec/95_test_vectors.md (and of
the worked examples in the rules it cites), whose parameters are the ones R11 suggests; none was computed
by this model. -/

namespace Sys2Proof.Tests

open Sys2Proof.Machine

/-! ### States and views -/

/-- The reference record of 95_test_vectors.md section 3: 819 mA, 100 milliohms, at bus address 0x40. -/
def referenceRecord (mode : ModeBits) : DeviceRecord :=
  { busAddress := 0x40, currentLsb := 24994, calibration := 2048, powerLsb := 624850
    operatingMode := mode }

/-- Unit 0 holds the reference record; the environment answers `reads` and `probes` in order. -/
def populated (mode : ModeBits) (reads : List Word16) : State :=
  { State.reset with
    dev := [referenceRecord mode, DeviceRecord.zero, DeviceRecord.zero]
    env := { reads := reads, probes := [], draws := 0 } }

/-- A fresh registry, one probe answer, then the given words. -/
def fresh (ack : Bool) (reads : List Word16) : State :=
  { State.reset with env := { reads := reads, probes := [ack], draws := 0 } }

/-- What the outside sees of one command, with the registry after it (R10). -/
def seen (i : Instr) (s : State) : Option (List BusEvent × List Response × List DeviceRecord) :=
  match exec i s with
  | .next t => some (newEvents s t, newResponses s t, t.dev)
  | .fault _ => none
  | .refused _ => none

/-- The calls and the responses of one command. -/
def talk (i : Instr) (s : State) : Option (List BusEvent × List Response) :=
  (seen i s).map fun x => (x.1, x.2.1)

/-- The responses of one command that makes no call and leaves the registry alone. -/
def quiet (i : Instr) (s : State) : Option (List Response) :=
  match seen i s with
  | some (es, rs, dev) => if es = [] ∧ dev = s.dev then some rs else none
  | none => none

/-! ### Well-formedness: each check refuses an ill-formed term (R76, R82) -/

theorem test_wf_accepts_a_command : (⟨0x01, 0, 2, 0x7F, 0, 1, 1⟩ : Fields).wellFormed = true := by decide
theorem test_wf_refuses_opcode_zero :
    (⟨0x00, 0, 0, 0, 0, 0, 0⟩ : Fields).violation = some (.unassignedOpcode 0) := by decide
theorem test_wf_refuses_opcode_above_the_table :
    (⟨0x17, 0, 0, 0, 0, 0, 0⟩ : Fields).violation = some (.unassignedOpcode 0x17) := by decide
theorem test_wf_refuses_flag : (⟨0x01, 1, 0, 0, 0, 0, 0⟩ : Fields).violation = some (.unusedFieldSet .f) := by
  decide
theorem test_wf_refuses_unit :
    (⟨0x02, 0, 1, 0, 0, 0, 0⟩ : Fields).violation = some (.unusedFieldSet .unit) := by decide
theorem test_wf_refuses_address :
    (⟨0x0B, 0, 0, 1, 0, 0, 0⟩ : Fields).violation = some (.unusedFieldSet .addr) := by decide
theorem test_wf_refuses_bit_48 : (⟨0x01, 0, 0, 0, 1, 0, 0⟩ : Fields).violation = some (.unusedFieldSet .z) := by
  decide
theorem test_wf_refuses_imm16 :
    (⟨0x0E, 0, 0, 0, 0, 1, 0⟩ : Fields).violation = some (.unusedFieldSet .imm16) := by decide
theorem test_wf_refuses_imm32 :
    (⟨0x03, 0, 0, 0, 0, 0, 1⟩ : Fields).violation = some (.unusedFieldSet .imm32) := by decide

/-! ### Decoding: one word of every command, as the spec writes it (R86, 95_test_vectors.md) -/

theorem test_decode_begin :
    decodeTableWord 64 0x09FE000100000D06 = some (.begin 1 0x7F 1 3334) := by decide
theorem test_decode_derive :
    decodeTableWord 64 0x1000FFFFFFFFFFFF = some (.derive 65535 4294967295) := by decide
theorem test_decode_scale_bus : decodeTableWord 64 0x1800258000000000 = some (.scaleBus 0x2580) := by decide
theorem test_decode_scale_shunt :
    decodeTableWord 64 0x2000FFFF00000000 = some (.scaleShunt 0xFFFF) := by decide
theorem test_decode_scale_cur :
    decodeTableWord 64 0x2A00800000000000 = some (.scaleCur 2 0x8000) := by decide
theorem test_decode_scale_pwr : decodeTableWord 64 0x3000000200000000 = some (.scalePwr 0 2) := by decide
theorem test_decode_set_mode : decodeTableWord 64 0x3900001B00000000 = some (.setMode 1 0x1B) := by decide
theorem test_decode_set_avg : decodeTableWord 64 0x400001F400000000 = some (.setAvg 0 500) := by decide
theorem test_decode_set_bus_ct : decodeTableWord 64 0x4800000900000000 = some (.setBusCt 0 9) := by decide
theorem test_decode_set_shunt_ct : decodeTableWord 64 0x5000000200000000 = some (.setShuntCt 0 2) := by decide
theorem test_decode_reset : decodeTableWord 64 0x5900000000000000 = some (.reset 1) := by decide
theorem test_decode_wait_conv : decodeTableWord 64 0x6100000000000000 = some (.waitConv 1) := by decide
theorem test_decode_set_alert_cnvr :
    decodeTableWord 64 0x6D00000000000000 = some (.setAlertCnvr 1 true) ∧
      decodeTableWord 64 0x6800000000000000 = some (.setAlertCnvr 0 false) := by decide
theorem test_decode_get_bus_mv :
    decodeTableWord 64 0x7500000000000000 = some (.getBusMv 1 true) ∧
      decodeTableWord 64 0x7100000000000000 = some (.getBusMv 1 false) := by decide
theorem test_decode_get_shunt_uv :
    decodeTableWord 64 0x7D00000000000000 = some (.getShuntUv 1 true) ∧
      decodeTableWord 64 0x7800000000000000 = some (.getShuntUv 0 false) := by decide
theorem test_decode_get_cur_ua : decodeTableWord 64 0x8200000000000000 = some (.getCurUa 2) := by decide
theorem test_decode_get_pwr_uw : decodeTableWord 64 0x8A00000000000000 = some (.getPwrUw 2) := by decide
theorem test_decode_get_addr : decodeTableWord 64 0x9100000000000000 = some (.getAddr 1) := by decide
theorem test_decode_get_cal : decodeTableWord 64 0x9900000000000000 = some (.getCal 1) := by decide
theorem test_decode_get_clsb : decodeTableWord 64 0xA100000000000000 = some (.getClsb 1) := by decide
theorem test_decode_get_plsb : decodeTableWord 64 0xA900000000000000 = some (.getPlsb 1) := by decide
theorem test_decode_get_mode : decodeTableWord 64 0xB300000000000000 = some (.getMode 3) := by decide

/-- The illegal words of 95_test_vectors.md section 6. -/
theorem test_decode_refuses_the_illegal_words :
    ∀ w ∈ [0x0000000000000000, 0xB800000000000000, 0xF800000000000000, 0xFFFFFFFFFFFFFFFF,
        0x5800000000000001, 0x5C00000000000000, 0x5880000000000000, 0x5800000100000000,
        0x0C800333000186A0, 0x08810333000186A0, 0x11000333000186A0, 0x1800000100000001,
        0x1B00000100000000, 0x7000000100000000, 0x5F00000000000001],
      decodeTableWord 64 w = none := by decide

/-- The words of R86, from the encoder. -/
theorem test_encode_worked_examples :
    encode (.begin 0 0x40 819 100000) = 0x08800333000186A0 ∧
      encode (.setAvg 0 500) = 0x400001F400000000 ∧ encode (.getBusMv 1 true) = 0x7500000000000000 ∧
      encode (.scaleShunt 0xFFFF) = 0x2000FFFF00000000 := by decide

/-- The syntax of R85. -/
theorem test_asm :
    asm (.begin 0 0x40 819 100000) = "BEGIN 0, 64, 819, 100000" ∧ asm (.getBusMv 0 true) = "GET_BUS_MV 0, 1" ∧
      asm (.reset 2) = "RESET 2" := by decide

/-! ### One step of each command -/

/-- Section 7, first row. -/
theorem test_begin_success :
    seen (.begin 0 0x40 819 100000) (fresh true [0x4127]) =
      some ([.probe 0x40 true, .write 0x40 .config 0x8000, .delay, .read 0x40 .config 0x4127,
          .write 0x40 .calib 0x0800], [okResponse],
        [referenceRecord 7, DeviceRecord.zero, DeviceRecord.zero]) := by decide

/-- Section 7: no acknowledge; one bit of the word wrong; section 6: unit before divisor. -/
theorem test_begin_other_outcomes :
    seen (.begin 0 0x40 819 100000) (fresh false []) =
        some ([.probe 0x40 false], [okResponse], State.reset.dev) ∧
      seen (.begin 0 0x40 819 100000) (fresh true [0x4126]) =
        some ([.probe 0x40 true, .write 0x40 .config 0x8000, .delay, .read 0x40 .config 0x4126],
          [okResponse], State.reset.dev) ∧
      quiet (.begin 3 0x40 0 0) State.reset = some [faultResponse .errUnit] ∧
      quiet (.begin 0 0x40 1 1000) State.reset = some [faultResponse .errDiv0] := by decide

/-- Section 2: the reference case, a truncated quotient, a quotient of 0. -/
theorem test_derive :
    quiet (.derive 819 100000) State.reset = some [⟨.ok, 24994, 624850, 2048⟩] ∧
      quiet (.derive 800 1000) State.reset = some [⟨.ok, 24414, 610350, 13228⟩] ∧
      quiet (.derive 65535 4294967295) State.reset = some [⟨.ok, 2000030, 50000750, 0⟩] := by decide

/-- Section 2: the divisor test on both sides of its boundary. -/
theorem test_derive_div0 :
    quiet (.derive 1 3333) State.reset = some [faultResponse .errDiv0] ∧
      quiet (.derive 1 3334) State.reset = some [⟨.ok, 30, 750, 16384⟩] ∧
      quiet (.derive 819 4) State.reset = some [faultResponse .errDiv0] := by decide

theorem test_scale_bus :
    quiet (.scaleBus 0xFFFF) State.reset = some [okRes0 0x00013FFE] ∧
      quiet (.scaleBus 0x8000) State.reset = some [okRes0 0x0000A000] := by decide

/-- Section 3: where truncation toward zero and floor differ. -/
theorem test_scale_shunt :
    quiet (.scaleShunt 0xFFFD) State.reset = some [okRes0 0xFFFFFFF9] ∧
      quiet (.scaleShunt 0x8000) State.reset = some [okRes0 0xFFFEC000] := by decide

theorem test_scale_cur :
    quiet (.scaleCur 0 0x8000) (populated 7 []) = some [okRes0 0xFFF380C5] ∧
      quiet (.scaleCur 1 0x7FFF) (populated 7 []) = some [okRes0 0] := by decide

theorem test_scale_pwr :
    quiet (.scalePwr 0 0xFFFF) (populated 7 []) = some [okRes0 0x0270D728] ∧
      quiet (.scalePwr 3 1) (populated 7 []) = some [faultResponse .errUnit] := by decide

/-- R132's example: bit 3 leaks, bits above stay. -/
theorem test_set_mode_bit_three :
    seen (.setMode 0 0x1B) (populated 7 [0x4127]) =
      some ([.read 0x40 .config 0x4127, .write 0x40 .config 0x412B], [okResponse],
        [referenceRecord 0b1011, DeviceRecord.zero, DeviceRecord.zero]) := by decide

/-- Section 4, row 0xFFF0: bit 3 is not cleared, the cache is the low four bits. -/
theorem test_set_mode_keeps_bit_three :
    seen (.setMode 0 0xFFF0) (populated 7 [0xFFFF]) =
      some ([.read 0x40 .config 0xFFFF, .write 0x40 .config 0xFFF8], [okResponse],
        [referenceRecord 0, DeviceRecord.zero, DeviceRecord.zero]) := by decide

theorem test_set_avg :
    talk (.setAvg 0 500) (populated 7 [0x4F27]) =
        some ([.read 0x40 .config 0x4F27, .write 0x40 .config 0x4B27], [okResponse]) ∧
      talk (.setAvg 0 1) (populated 7 [0xFFFF]) =
        some ([.read 0x40 .config 0xFFFF, .write 0x40 .config 0xF1FF], [okResponse]) := by decide

/-- Section 4, the `SET_AVG` table: each tier and the value one below it. -/
theorem test_avg_index :
    ([0, 1, 3, 4, 15, 16, 63, 64, 127, 128, 255, 256, 511, 512, 1023, 1024, 65535].map avgIndex) =
      [0, 0, 0, 1, 1, 2, 2, 3, 3, 4, 4, 5, 5, 6, 6, 7, 7] := by decide

theorem test_set_bus_ct :
    talk (.setBusCt 0 8) (populated 7 [0x4127]) =
        some ([.read 0x40 .config 0x4127, .write 0x40 .config 0x41E7], [okResponse]) ∧
      talk (.setBusCt 0 5) (populated 7 [0x0000]) =
        some ([.read 0x40 .config 0x0000, .write 0x40 .config 0x0140], [okResponse]) := by decide

theorem test_set_shunt_ct :
    talk (.setShuntCt 0 65535) (populated 7 [0x4127]) =
        some ([.read 0x40 .config 0x4127, .write 0x40 .config 0x413F], [okResponse]) ∧
      talk (.setShuntCt 0 0) (populated 7 [0xFFFF]) =
        some ([.read 0x40 .config 0xFFFF, .write 0x40 .config 0xFFC7], [okResponse]) := by decide

theorem test_reset :
    seen (.reset 0) (populated 2 []) =
        some ([.write 0x40 .config 0x8000, .delay], [okResponse], (populated 2 []).dev) ∧
      talk (.reset 1) (populated 2 []) = some ([.write 0x00 .config 0x8000, .delay], [okResponse]) := by
  decide

/-- Section 4: every bit but bit 3 set is not ready; bit 3 alone is. -/
theorem test_wait_conv :
    talk (.waitConv 0) (populated 7 [0xFFF7]) = some ([.read 0x40 .maskEn 0xFFF7], []) ∧
      talk (.waitConv 0) (populated 7 [0x0008]) = some ([.read 0x40 .maskEn 0x0008], [okResponse]) := by
  decide

theorem test_set_alert_cnvr :
    talk (.setAlertCnvr 0 true) (populated 7 [0x0008]) =
        some ([.read 0x40 .maskEn 0x0008, .write 0x40 .maskEn 0x0408], [okResponse]) ∧
      talk (.setAlertCnvr 0 false) (populated 7 [0xFFFF]) =
        some ([.read 0x40 .maskEn 0xFFFF, .write 0x40 .maskEn 0xFBFF], [okResponse]) := by decide

/-- Section 5: triggered-both re-triggers, with bit 15 of the word written back. -/
theorem test_get_bus_mv :
    talk (.getBusMv 0 false) (populated 3 [0x2580, 0xC123]) =
      some ([.read 0x40 .busV 0x2580, .read 0x40 .config 0xC123, .write 0x40 .config 0xC123],
        [okRes0 12000]) := by decide

/-- Section 5: the number of calls over all sixteen cached modes. -/
theorem test_get_bus_mv_modes :
    ((List.range 16).map fun m =>
        (talk (.getBusMv 0 false) (populated (BitVec.ofNat 4 m) [0x2580, 0])).map fun x => x.1.length) =
      [1, 1, 3, 3, 1, 1, 1, 1, 1, 1, 3, 3, 1, 1, 1, 1].map some := by decide

theorem test_get_shunt_uv :
    talk (.getShuntUv 0 true) (populated 1 [0x0408, 0xFFFC, 0x4121]) =
      some ([.read 0x40 .maskEn 0x0408, .read 0x40 .shuntV 0xFFFC, .read 0x40 .config 0x4121,
        .write 0x40 .config 0x4121], [okRes0 0xFFFFFFF6]) := by decide

/-- Section 5: the number of calls over all sixteen cached modes. -/
theorem test_get_shunt_uv_modes :
    ((List.range 16).map fun m =>
        (talk (.getShuntUv 0 false) (populated (BitVec.ofNat 4 m) [4, 0])).map fun x => x.1.length) =
      [1, 3, 1, 3, 1, 1, 1, 1, 1, 3, 1, 3, 1, 1, 1, 1].map some := by decide

theorem test_get_cur_ua :
    talk (.getCurUa 0) (populated 3 [0xFC18]) =
      some ([.read 0x40 .current 0xFC18], [okRes0 0xFFFF9E5E]) := by decide

theorem test_get_pwr_uw :
    talk (.getPwrUw 0) (populated 3 [0xFFFF]) =
      some ([.read 0x40 .power 0xFFFF], [okRes0 40949544]) := by decide

/-- R176 to R180 after the worked example of R171, and section 6's `GET_MODE 3`. -/
theorem test_accessors :
    quiet (.getAddr 0) (populated 11 []) = some [okRes0 0x40] ∧
      quiet (.getCal 0) (populated 11 []) = some [⟨.ok, 0, 0, 2048⟩] ∧
      quiet (.getClsb 0) (populated 11 []) = some [okRes0 24994] ∧
      quiet (.getPlsb 0) (populated 11 []) = some [okRes0 624850] ∧
      quiet (.getMode 0) (populated 11 []) = some [okRes0 11] ∧
      quiet (.getMode 3) (populated 11 []) = some [faultResponse .errUnit] := by decide

/-! ### The sequencer -/

/-- The calls, responses and next activity of one step. -/
def stepped (s : State) : Option (List BusEvent × List Response × Activity) :=
  match step s with
  | .next t => some (newEvents s t, newResponses s t, t.activity)
  | .fault _ => none
  | .refused _ => none

/-- A word presented right after reset is the command the first step runs (log 10). -/
theorem test_first_step_runs_the_presented_word :
    stepped (State.reset.withFetchWord 64 0x1800258000000000) =
      some ([], [okRes0 12000], .idle) := by decide

/-- Program P3, step 9: an illegal word is answered, and that is all (R190). -/
theorem test_step_answers_an_illegal_word :
    stepped (State.reset.withFetchWord 64 0x5800000000000001) =
      some ([], [faultResponse .errIllegal], .idle) := by decide

/-- A waiting command polls once a step (R148). -/
theorem test_step_polls_again :
    stepped { populated 7 [0x0404] with activity := .polling 0x40 .waitConv } =
      some ([.read 0x40 .maskEn 0x0404], [], .polling 0x40 .waitConv) := by decide

/-- Hardware reset ends a wait, with no response and no call (R211). -/
theorem test_reset_ends_a_wait :
    stepped { populated 7 [] with activity := .polling 0x40 .waitConv, resetLine := [.before] } =
      some ([], [], .idle) := by decide

/-- Reset between the read and the write of a read-modify-write (R62, R211): the write is not made. -/
theorem test_reset_inside_set_mode :
    stepped { populated 7 [0x4127] with
        commands := [0x3800000300000000], resetLine := [.inside 1] } =
      some ([.read 0x40 .config 0x4127], [], .idle) := by decide

/-- Reset inside a command that makes no bus call, `SCALE_BUS`: no response either (R211). -/
theorem test_reset_inside_scale_bus :
    stepped { populated 7 [] with commands := [0x1800258000000000], resetLine := [.inside 0] } =
      some ([], [], .idle) := by decide

/-- The two bytes of a word on the bus (R53, R55). -/
theorem test_transport_of_a_write :
    (BusEvent.write 0x40 .calib 0x1062).transport =
      [.beginTransaction 0x40, .writeByte 5, .writeWord 0x10 0x62, .endTransaction] := by decide

/-! ### Witnesses: for each statement with hypotheses, a state and operands that meet them together -/

/-- A waiting `GET_BUS_MV 0, 1` and the words still to come. -/
def waiting (reads : List Word16) : State :=
  { populated 3 reads with activity := .polling 0x40 (.getBusMv 0) }

/-- An idle sequencer with one word presented. -/
def presented (w : CmdWord) (l : List ResetSignal) (reads : List Word16) : State :=
  { populated 7 reads with commands := [w], resetLine := l }

theorem witness_decode_then_encode : decode 0x400001F400000000 = .ok (.setAvg 0 500) := by decide

/-- A word of the first row and a word of the last row of the table; and one of none. -/
theorem witness_rows :
    (0x0800000000000000 : CmdWord) &&& 0xFC01000000000000 = 0x0800000000000000 ∧
      (0xB300000000000000 : CmdWord) &&& 0xFCFFFFFFFFFFFFFF = 0xB000000000000000 ∧
      (opcodeTable.all fun r => !r.isRowOf 0x5800000000000001) = true := by decide

theorem witness_illegal_word :
    let s := presented 0x5800000000000001 [] []
    let s' := presented 0x5800000000000001 [.inside 0] []
    (s.resetSignal = .low ∧ s.activity = .idle ∧ s.commands = 0x5800000000000001 :: []) ∧
      (s'.resetSignal = .inside 0 ∧ s'.activity = .idle ∧ s'.commands = 0x5800000000000001 :: []) ∧
      decode 0x5800000000000001 = .error (.unusedFieldSet .imm32) := by decide

/-- Each kind of illegal word of R82, at the ends of its range. -/
theorem witness_illegal_kinds :
    decode 0x0000000000000000 = .error (.unassignedOpcode 0x00) ∧
      decode 0xB800000000000000 = .error (.unassignedOpcode 0x17) ∧
      decode 0xF800000000000000 = .error (.unassignedOpcode 0x1F) ∧
      decode 0x0801000000000000 = .error (.unusedFieldSet .z) ∧
      decode 0xB000000000000001 = .error (.unusedFieldSet .imm32) := by decide

/-- Both clauses of `StepRunsTheDecodedCommand`. -/
theorem witness_step_runs :
    let s := presented 0x3800000300000000 [.low, .before] [0x4127]
    let s' := presented 0x3800000300000000 [.inside 1] [0x4127]
    (s.activity = .idle ∧ s.commands = 0x3800000300000000 :: [] ∧ s.resetSignal = .low) ∧
      (s'.activity = .idle ∧ s'.commands = 0x3800000300000000 :: [] ∧ s'.resetSignal = .inside 1) ∧
      decode 0x3800000300000000 = .ok (.setMode 0 3) := by decide

theorem witness_idle :
    State.reset.resetSignal = .low ∧ State.reset.resetLine = [] ∧ State.reset.activity = .idle ∧
      State.reset.commands = [] := by decide

theorem witness_hardware_reset :
    ({ waiting [] with resetLine := [.before] } : State).resetSignal = .before := by decide

/-- A reset before the first of the two calls of `SET_MODE` and after the last; one inside `SCALE_BUS`,
which makes none; and one inside a poll. -/
theorem witness_reset_inside :
    (∀ w ∈ [(0x3800000300000000 : CmdWord), 0x1800258000000000], ∀ n ∈ [0, 2],
      (presented w [.inside n] [0x4127]).resetSignal = .inside n ∧
        (presented w [.inside n] [0x4127]).activity = .idle ∧
        (presented w [.inside n] [0x4127]).commands = w :: [] ∧ ∃ i, decode w = .ok i) ∧
      ∃ t, ({ waiting [0x0000] with resetLine := [.inside 1] } : State).resetSignal = .inside 1 ∧
        advance (nextSignal { waiting [0x0000] with resetLine := [.inside 1] }) = .next t := by
  refine ⟨fun w hw n _ => ⟨rfl, rfl, rfl, ?_⟩, _, rfl, rfl⟩
  rcases List.mem_pair.mp hw with rfl | rfl
  · exact ⟨.setMode 0 3, by decide⟩
  · exact ⟨.scaleBus 0x2580, by decide⟩

/-- Divisors at the boundaries of R108: 1, 781, 782, 51200000, and above. -/
theorem witness_divisors :
    divisorOf 1 3334 = 1 ∧ divisorOf 1 2606666 = 781 ∧ divisorOf 1 2606667 = 782 ∧
      divisorOf 32767 5120000 = 51200000 ∧ divisorOf 32767 5120001 = 51200010 := by decide

/-- Both sides of the product bound of R109, and a unit that names a record. -/
theorem witness_divisor_bound :
    0 < clsbOf 1 ∧ clsbOf 1 * (3333#32).toNat < 100000 ∧ ¬ clsbOf 1 * (3334#32).toNat < 100000 ∧
      (0#2).toNat < State.reset.nUnits := by decide

theorem witness_scaler_bounds :
    (2000030#32).toNat ≤ 2000030 ∧ (50000750#32).toNat ≤ 50000750 ∧
      scalePwr 0xFFFF 50000750 = 3276799151 ∧ scaleCur 0x8000 2000030 = -65536983 := by decide

theorem witness_odd_raw : (0x7FFF#16 : Word16) ≠ 0x8000#16 ∧ (0x8001#16 : Word16) ≠ 0x8000#16 := by decide

/-- The lowest and the highest bit outside both masks of `SET_AVG`. -/
theorem witness_rmw_bits :
    ∀ k ∈ [0, 15], k < 16 ∧ avgMask.getLsbD k = false ∧ (0x0A00#16).getLsbD k = false := by decide

/-- The first and the last record of three, with the operand's bit 3 clear and set. -/
theorem witness_units :
    (0#2).toNat < (populated 7 []).nUnits ∧ (2#2).toNat < (populated 7 []).nUnits ∧
      (0x0007#16).getLsbD 3 = false ∧ (0x001B#16).getLsbD 3 = true := by decide

theorem witness_set_mode :
    ∃ t, (0#2).toNat < (populated 7 [0x4127]).nUnits ∧
      exec (.setMode 0 0x1B) (populated 7 [0x4127]) = .next t := ⟨_, by decide, rfl⟩

/-- The clauses of `AveragingIndexIsTheLargestTierNotExceeding` at 0, 3, 4 and 1024. -/
theorem witness_averaging :
    0 < (1#16).toNat ∧ avgSamples 0 ≤ (1#16).toNat ∧ avgSamples 1 ≤ (4#16).toNat ∧
      avgSamples 7 ≤ (1024#16).toNat ∧ (0#16).toNat ≤ 3 ∧ (3#16).toNat ≤ 3 := by decide

/-- What the statements about a whole wait ask of unit 0 and of the answers `ws`, then `r`, then `rest`. -/
def readyAfter (s : State) (m : ModeBits) (ws : List Word16) (r : Word16) (rest : List Word16) : Prop :=
  s.dev[(0#2).toNat]? = some (referenceRecord m) ∧ s.resetLine = [] ∧ s.env.reads = ws ++ r :: rest ∧
    (∀ w ∈ ws, w.getLsbD s.params.cvrfBit.val = false) ∧ r.getLsbD s.params.cvrfBit.val = true

/-- No word before the ready one, and two. -/
theorem witness_wait_conv_ends :
    readyAfter (populated 7 [0x0008]) 7 [] 0x0008 [] ∧
      readyAfter (populated 7 [0x0000, 0xFFF7, 0x0008]) 7 [0x0000, 0xFFF7] 0x0008 [] :=
  ⟨⟨rfl, rfl, rfl, by simp, by decide⟩, rfl, rfl, rfl,
    fun w hw => by rcases List.mem_pair.mp hw with rfl | rfl <;> decide, by decide⟩

theorem witness_waiting_goes_on :
    let s := waiting [0x0000, 0xFFF7, 0x0400]
    s.activity = .polling 0x40 (.getBusMv 0) ∧ s.resetLine = [] ∧
      ∀ k < 3, (s.answerAt k k).getLsbD s.params.cvrfBit.val = false := by decide

/-- Both ways out of a wait: the ready bit, and hardware reset. -/
theorem witness_wait_ends :
    (∃ t, step (waiting [0x0008, 0x2580, 0x4123]) = .next t ∧ t.activity ≠ .polling 0x40 (.getBusMv 0)) ∧
      ∃ t, step { waiting [] with resetLine := [.before] } = .next t ∧
        t.activity ≠ .polling 0x40 (.getBusMv 0) :=
  ⟨⟨_, rfl, by decide⟩, ⟨_, rfl, by decide⟩⟩

/-- No word before the ready one, with the two answers after it supplied; and one, with neither. -/
theorem witness_waiting_reads :
    readyAfter (populated 3 [0x0008, 0x2580, 0x4123]) 3 [] 0x0008 [0x2580, 0x4123] ∧
      readyAfter (populated 3 [0x0000, 0x0008]) 3 [0x0000] 0x0008 [] :=
  ⟨⟨rfl, rfl, rfl, by simp, by decide⟩, rfl, rfl, rfl,
    fun w hw => by rw [List.mem_singleton.mp hw]; decide, by decide⟩

/-- Each clause of `ReadsReturnWhatTheScalersReturn`. -/
theorem witness_reads :
    let s := populated 3 [0x0008, 0x2580, 0x4123]
    (0#2).toNat < s.nUnits ∧ (∃ t, exec (.getBusMv 0 false) s = .next t) ∧
      (∃ t, exec (.getShuntUv 0 false) s = .next t) ∧
      (∃ t, exec (.getBusMv 0 true) s = .next t ∧ t.activity = .idle) ∧
      (∃ t, exec (.getShuntUv 0 true) s = .next t ∧ t.activity = .idle) ∧
      (∃ t, exec (.getCurUa 0) s = .next t) ∧ ∃ t, exec (.getPwrUw 0) s = .next t :=
  ⟨by decide, ⟨_, rfl⟩, ⟨_, rfl⟩, ⟨_, rfl, by decide⟩, ⟨_, rfl, by decide⟩, ⟨_, rfl⟩, ⟨_, rfl⟩⟩

/-- Two states whose old records differ, and the one `BEGIN` succeeds in both. -/
theorem witness_successful_begin :
    ∃ t1 t2, exec (.begin 0 0x40 819 100000) (fresh true [0x4127]) = .next t1 ∧
      exec (.begin 0 0x40 819 100000)
          { populated 2 [0x4127] with env := { reads := [0x4127], probes := [true], draws := 0 } } =
        .next t2 ∧
      BusEvent.write 0x40 .calib 0x0800 ∈ newEvents (fresh true [0x4127]) t1 ∧
      BusEvent.write 0x40 .calib 0x0800 ∈
        newEvents { populated 2 [0x4127] with env := { reads := [0x4127], probes := [true], draws := 0 } }
          t2 := ⟨_, _, rfl, rfl, by decide, by decide⟩

/-- A command out of range with three records, and the same unit in range with four. -/
theorem witness_units_out_of_range :
    unitOf (.getMode 3) = some 3 ∧ (populated 7 []).nUnits = 3 ∧
      (populated 7 []).nUnits ≤ (3#2).toNat ∧
      ({ State.reset with dev := List.replicate 4 DeviceRecord.zero } : State).nUnits = 4 := by decide

theorem witness_faulting_command :
    ∃ t, exec (.getMode 3) (populated 7 []) = .next t ∧
      faultResponse .errUnit ∈ newResponses (populated 7 []) t ∧ (faultResponse .errUnit).status ≠ .ok :=
  ⟨_, rfl, by decide, by decide⟩

/-- Each clause of `EveryCommandEndsAsTabled`, and the command that is still waiting. -/
theorem witness_ends :
    unitFault (.begin 3 0 0 0) (populated 7 []) = true ∧
      (unitFault (.begin 0 0 0 0) (populated 7 []) = false ∧ divFault (.begin 0 0 0 0) = true) ∧
      (unitFault (.getBusMv 0 true) (populated 7 []) = false ∧ divFault (.getBusMv 0 true) = false) ∧
      ∃ t, exec (.getBusMv 0 true) (populated 7 [0x0000]) = .next t ∧
        newResponses (populated 7 [0x0000]) t = [] := ⟨by decide, by decide, by decide, _, rfl, by decide⟩

/-- The two commands that write the registry, and one that does not. -/
theorem witness_registry :
    ∃ t t' t'', exec (.setMode 0 3) (populated 7 [0x4127]) = .next t ∧
      exec (.begin 0 0x41 819 100000) (fresh true [0x4127]) = .next t' ∧
      exec (.setAvg 0 3) (populated 7 [0x4127]) = .next t'' ∧ t.dev ≠ (populated 7 []).dev ∧
      t'.dev ≠ State.reset.dev ∧ t''.dev = (populated 7 []).dev ∧ unitOf (.setMode 0 3) = some 0 :=
  ⟨_, _, _, rfl, rfl, rfl, by decide, by decide, by decide, by decide⟩

/-- A call of a command and a call of a poll, and a command that is left waiting. -/
theorem witness_calls :
    (∃ t, exec (.setAvg 0 3) (populated 7 [0x4127]) = .next t ∧
      BusEvent.write 0x40 .config 0x4127 ∈ newEvents (populated 7 [0x4127]) t) ∧
      BusEvent.write 0x40 .config 0x4123 ∈
        newEvents (waiting [8, 0x2580, 0x4123])
          (pollOnce 0x40 (.getBusMv 0) (waiting [8, 0x2580, 0x4123])) ∧
      ∃ t, exec (.getBusMv 0 true) (populated 7 [0x0000]) = .next t ∧
        t.activity = .polling 0x40 (.getBusMv 0) ∧ (populated 7 [0x0000]).activity = .idle :=
  ⟨⟨_, rfl, by decide⟩, by decide, _, rfl, by decide, by decide⟩

theorem witness_step_answers : ∃ t, step (waiting [0x0000]) = .next t := ⟨_, rfl⟩

theorem witness_same_but_observations :
    sameButObservations (populated 7 [0x4127])
      { populated 7 [0x4127] with responses := [okResponse], trace := [.delay] } := rfl

/-- The record of program P1 is one `Derive` result, so a populated, waiting state has the invariant. -/
theorem witness_invariant : (waiting [0x0008, 0x2580, 0x4123]).Inv ∧
    ∃ t, step (waiting [0x0008, 0x2580, 0x4123]) = .next t := by
  refine ⟨⟨by decide, by decide, ?_, (by decide : (0#2).toNat < 3)⟩, _, rfl⟩
  have known : ∀ d ∈ (waiting [0x0008, 0x2580, 0x4123]).dev,
      d = referenceRecord 3 ∨ d = DeviceRecord.zero := by decide
  intro d hd
  rcases known d hd with rfl | rfl
  · exact .inr ⟨819, 100000, by decide⟩
  · exact .inl ⟨rfl, rfl, rfl, rfl⟩

/-- One step from reset, with one and with four records. -/
theorem witness_reachable :
    Config.Params.suggested.valid = true ∧
      ∀ k ∈ [1, 4], 1 ≤ k ∧ k ≤ 4 ∧
        ∃ t, Host.Core.run core 1
            { State.reset with
              params := Config.Params.suggested, dev := List.replicate k DeviceRecord.zero
              commands := [0x08800333000186A0]
              env := { reads := [0x4127], probes := [true], draws := 0 }, resetLine := [] } =
          .next t := by
  refine ⟨by decide, fun k hk => ?_⟩
  rcases List.mem_pair.mp hk with rfl | rfl <;> exact ⟨by decide, by decide, _, rfl⟩

/-- Both clauses of `ModeCacheAgreesAfterSetModeAndBegin`. -/
theorem witness_mode_cache :
    (∃ t, exec (.setMode 0 3) (populated 7 [0x4127]) = .next t ∧
      t.dev[(0#2).toNat]? = some (referenceRecord 3)) ∧
      ∃ t, (fresh true [0x4127]).params.valid = true ∧
        exec (.begin 0 0x40 819 100000) (fresh true [0x4127]) = .next t ∧
        BusEvent.write 0x40 .calib 0x0800 ∈ newEvents (fresh true [0x4127]) t ∧
        t.dev[(0#2).toNat]? = some (referenceRecord 7) :=
  ⟨⟨_, rfl, by decide⟩, _, by decide, rfl, by decide, by decide⟩

/-- A `RESET` of a unit whose cache says triggered-bus, as in program P4. -/
theorem witness_reset_out_of_step :
    ∃ t, (populated 2 []).params.valid = true ∧
      (populated 2 []).dev[(0#2).toNat]? = some (referenceRecord 2) ∧
      exec (.reset 0) (populated 2 []) = .next t := ⟨_, by decide, by decide, rfl⟩

/-- A record in the ranges, and a step from a state all of whose records are. -/
theorem witness_fields_in_range :
    (∀ d ∈ (waiting [0x0000]).dev, d.inRange) ∧ ∃ t, step (waiting [0x0000]) = .next t := by
  have known : ∀ d ∈ (waiting [0x0000]).dev, d = referenceRecord 3 ∨ d = DeviceRecord.zero := by decide
  refine ⟨fun d hd => ?_, _, rfl⟩
  rcases known d hd with rfl | rfl
  · exact ⟨by decide, by decide, by decide, .inr (by decide)⟩
  · exact ⟨by decide, by decide, by decide, .inl ⟨rfl, rfl, rfl⟩⟩

/-- Each clause of `EveryConfigurationWriteStartsOneConversion`, in a mode that re-triggers and in one that
does not: the five writers, the reads without and with a wait, the polls, `BEGIN` with and without an
acknowledge, and the commands that write nothing. -/
theorem witness_conversions :
    ∀ m ∈ [3, 7],
      let s := populated m [0x0008, 0x2580, 0x4123]
      s.dev[(0#2).toNat]? = some (referenceRecord m) ∧
        (∀ i ∈ [Instr.setMode 0 3, .setAvg 0 16, .setBusCt 0 16, .setShuntCt 0 16, .reset 0, .getBusMv 0 false,
            .getShuntUv 0 false, .getBusMv 0 true, .getShuntUv 0 true, .getCurUa 0, .getPwrUw 0, .waitConv 0,
            .begin 0 0x40 819 100000], ∃ t, exec i s = .next t) ∧
        (pollOnce 0x40 (.getBusMv 0) s).activity = .idle ∧
        (pollOnce 0x40 (.getShuntUv 0) (populated m [0x0000])).activity ≠ .idle ∧
        (∃ t, exec (.begin 0 0x41 819 100000) (fresh true [0x4127]) = .next t ∧
          BusEvent.probe 0x41 true ∈ newEvents (fresh true [0x4127]) t) ∧
        ∃ t, exec (.begin 0 0x41 819 100000) (fresh false []) = .next t ∧
          BusEvent.probe 0x41 true ∉ newEvents (fresh false []) t := by
  intro m hm
  refine ⟨?_, fun i _ => ?_, ?_, ?_, ⟨_, rfl, by decide⟩, ⟨_, rfl, by decide⟩⟩
  · rcases List.mem_pair.mp hm with rfl | rfl <;> decide
  · cases i <;> exact ⟨_, rfl⟩
  · rcases List.mem_pair.mp hm with rfl | rfl <;> decide
  · rcases List.mem_pair.mp hm with rfl | rfl <;> decide

end Sys2Proof.Tests
end

section
/-! What one command, one poll and one step can do to the state, said once for all commands: the calls made
so far as a relation that each bus-master primitive extends, the effect of a command built from it, and the
ways a step can go on. -/

namespace Sys2Proof.Machine

/-- Between `s` and `t` the bus-master calls `es` were made, perhaps a record was written, and nothing else:
the part of a command before its response. Every field but the registry is spoken of. -/
structure MadeCalls (s t : State) (es : List BusEvent) : Prop where
  params : t.params = s.params
  activity : t.activity = s.activity
  commands : t.commands = s.commands
  responses : t.responses = s.responses
  trace : t.trace = s.trace ++ es
  reads : t.env.reads = s.env.reads.drop (readCount es)
  probes : t.env.probes = s.env.probes.drop (probeCount es)
  resetLine : t.resetLine = s.resetLine
  noCall : es = [] → t.busStatus = s.busStatus ∧ t.env = s.env

theorem MadeCalls.refl (s : State) : MadeCalls s s [] where
  params := rfl
  activity := rfl
  commands := rfl
  responses := rfl
  trace := (List.append_nil _).symm
  reads := rfl
  probes := rfl
  resetLine := rfl
  noCall := fun _ => ⟨rfl, rfl⟩

/-- Calls follow one another; the answers they take are counted on. -/
theorem MadeCalls.trans {s t u : State} {es fs : List BusEvent} (h : MadeCalls s t es)
    (h' : MadeCalls t u fs) : MadeCalls s u (es ++ fs) where
  params := h'.params.trans h.params
  activity := h'.activity.trans h.activity
  commands := h'.commands.trans h.commands
  responses := h'.responses.trans h.responses
  trace := by rw [h'.trace, h.trace, List.append_assoc]
  reads := by simp [h'.reads, h.reads, readCount]
  probes := by simp [h'.probes, h.probes, probeCount]
  resetLine := h'.resetLine.trans h.resetLine
  noCall := by
    intro hnil
    obtain ⟨hes, hfs⟩ := List.append_eq_nil_iff.mp hnil
    obtain ⟨hstatus, henv⟩ := h.noCall hes
    obtain ⟨hstatus', henv'⟩ := h'.noCall hfs
    exact ⟨hstatus'.trans hstatus, henv'.trans henv⟩

theorem regRead_calls (a : BusAddr) (r : Reg) (s : State) :
    MadeCalls s (regRead a r s) [.read a r s.readAnswer] where
  params := rfl
  activity := rfl
  commands := rfl
  responses := rfl
  trace := rfl
  reads := by simp [readCount]
  probes := rfl
  resetLine := rfl
  noCall := by simp

theorem regWrite_calls (a : BusAddr) (r : Reg) (v : Word16) (s : State) :
    MadeCalls s (regWrite a r v s) [.write a r v] where
  params := rfl
  activity := rfl
  commands := rfl
  responses := rfl
  trace := rfl
  reads := rfl
  probes := rfl
  resetLine := rfl
  noCall := by simp

theorem probe_calls (a : BusAddr) (s : State) : MadeCalls s (probe a s) [.probe a s.probeAnswer] where
  params := rfl
  activity := rfl
  commands := rfl
  responses := rfl
  trace := rfl
  reads := rfl
  probes := by simp [probeCount]
  resetLine := rfl
  noCall := by simp

theorem delay_calls (s : State) : MadeCalls s (delay s) [.delay] where
  params := rfl
  activity := rfl
  commands := rfl
  responses := rfl
  trace := rfl
  reads := rfl
  probes := rfl
  resetLine := rfl
  noCall := by simp

theorem rmw_calls (a : BusAddr) (r : Reg) (clear set : Word16) (s : State) :
    MadeCalls s (rmw a r clear set s)
      [.read a r s.readAnswer, .write a r (rmwWord clear set s.readAnswer)] :=
  (regRead_calls a r s).trans (regWrite_calls a r _ _)

/-- A registry write is no call. -/
theorem MadeCalls.then_setDev {s t : State} {es : List BusEvent} (h : MadeCalls s t es) (u : UnitId)
    (d : DeviceRecord) : MadeCalls s (setDev u d t) es :=
  { h with }

/-- A response ends the command (R9, R80). -/
theorem MadeCalls.endsWith {s t : State} {es : List BusEvent} (h : MadeCalls s t es) (r : Response) :
    EndsWith s (respond r t) t.dev r es where
  params := h.params
  dev := rfl
  activity := rfl
  commands := h.commands
  responses := by simp [h.responses]
  trace := h.trace
  reads := h.reads
  probes := h.probes
  resetLine := h.resetLine
  noCall := h.noCall

/-- A poll that did not see the ready bit leaves the command waiting (R148). -/
theorem stillWaits_keepPolling (a : BusAddr) (next : AfterWait) (s : State) :
    StillWaits s (keepPolling a next (regRead a .maskEn s)) a next s.readAnswer where
  params := rfl
  dev := rfl
  activity := rfl
  commands := rfl
  responses := rfl
  trace := rfl
  reads := by simp
  probes := rfl
  resetLine := rfl

/-- Everything one command can make of the registry: nothing, a new mode cache in one record (`SET_MODE`,
R131), or one record populated from one `Derive` (`BEGIN`, R171). -/
inductive RegistryUpdate (dev : List DeviceRecord) : List DeviceRecord → Prop
  | kept : RegistryUpdate dev dev
  | cached {u : UnitId} {d : DeviceRecord} (m : ModeBits) (hd : dev[u.toNat]? = some d) :
      RegistryUpdate dev (dev.set u.toNat { d with operatingMode := m })
  | populated {ma : Word16} {sh : Word32} {c : Coefficients} (u : UnitId) (addr : BusAddr)
      (hc : deriveCoefficients ma sh = some c) :
      RegistryUpdate dev (dev.set u.toNat (populatedRecord addr c))

/-- Everything a command, or one poll of a command in progress, can do from `s`: end with one response, or
wait, at a unit it looked up or as it did before. -/
inductive CommandEffect (s t : State) : Prop
  | ends {dev' : List DeviceRecord} {r : Response} {es : List BusEvent}
      (h : EndsWith s t dev' r es) (hdev : RegistryUpdate s.dev dev')
  | waits {a : BusAddr} {next : AfterWait} {w : Word16} (h : StillWaits s t a next w)
      (hunit : s.activity = .polling a next ∨ (Activity.polling a next).unitInRange s.nUnits)

/-- A response after calls that left the registry alone. -/
theorem CommandEffect.of_respond {s t : State} {es : List BusEvent} (h : MadeCalls s t es)
    (hdev : t.dev = s.dev) (r : Response) : CommandEffect s (respond r t) :=
  .ends (h.endsWith r) (hdev ▸ .kept)

/-- A response at once: a fault, or a result that needs no call. -/
theorem CommandEffect.of_respond_self (r : Response) (s : State) : CommandEffect s (respond r s) :=
  .of_respond (.refl s) rfl r

/-- The unit lookup either faults or goes on with the record (R191). -/
theorem CommandEffect.of_withUnit {s s' : State} {u : UnitId} {k : DeviceRecord → State}
    (hdev : s'.dev = s.dev) (hnone : CommandEffect s (raise .errUnit s'))
    (hk : ∀ d, s.dev[u.toNat]? = some d → CommandEffect s (k d)) :
    CommandEffect s (withUnit u s' k) := by
  rcases withUnit_cases u s' k with ⟨d, hd, hw⟩ | ⟨_, _, hw⟩
  · rw [hw]
    exact hk d (hdev ▸ hd)
  · rwa [hw]

/-- The unit lookup as the first thing a command does (R191). -/
theorem CommandEffect.of_unit {s : State} {u : UnitId} {k : DeviceRecord → State}
    (hk : ∀ d, s.dev[u.toNat]? = some d → CommandEffect s (k d)) :
    CommandEffect s (withUnit u s k) :=
  .of_withUnit rfl (.of_respond_self _ s) hk

/-- A unit that names a record is below `N_UNITS`. -/
theorem lt_nUnits_of_getElem? {s : State} {u : UnitId} {d : DeviceRecord}
    (hd : s.dev[u.toNat]? = some d) : u.toNat < s.nUnits :=
  (List.getElem?_eq_some_iff.mp hd).1

/-- The end of a voltage read, whatever calls came before it: the data read, and the re-trigger where
`again` asks for one (R156, R158). -/
theorem CommandEffect.of_dataRead {s t : State} {es : List BusEvent} (h : MadeCalls s t es)
    (hdev : t.dev = s.dev) (a : BusAddr) (r : Reg) (again : Bool) (v : Word32) :
    CommandEffect s (done0 v (if again then retrigger a (regRead a r t) else regRead a r t)) := by
  have read := h.trans (regRead_calls a r t)
  cases again with
  | false => exact .of_respond read hdev _
  | true => exact .of_respond (read.trans (rmw_calls a .config _ _ _)) hdev _

theorem finishGetBusMv_effect {s t : State} {es : List BusEvent} (h : MadeCalls s t es)
    (hdev : t.dev = s.dev) (a : BusAddr) (u : UnitId) : CommandEffect s (finishGetBusMv a u t) :=
  .of_withUnit hdev (.of_respond h hdev _) fun d _ =>
    .of_dataRead h hdev a .busV (retriggersBus d.operatingMode) _

theorem finishGetShuntUv_effect {s t : State} {es : List BusEvent} (h : MadeCalls s t es)
    (hdev : t.dev = s.dev) (a : BusAddr) (u : UnitId) : CommandEffect s (finishGetShuntUv a u t) :=
  .of_withUnit hdev (.of_respond h hdev _) fun d _ =>
    .of_dataRead h hdev a .shuntV (retriggersShunt d.operatingMode) _

/-- One poll (R147), of a command that waited already or whose unit was just looked up. -/
theorem pollOnce_effect {s : State} {a : BusAddr} {next : AfterWait}
    (hunit : s.activity = .polling a next ∨ (Activity.polling a next).unitInRange s.nUnits) :
    CommandEffect s (pollOnce a next s) := by
  have polled := regRead_calls a .maskEn s
  rcases pollOnce_cases a next s with ⟨_, hp⟩ | ⟨_, hp⟩ <;> rw [hp]
  · exact .waits (stillWaits_keepPolling a next s) hunit
  · cases next with
    | waitConv => exact .of_respond polled rfl _
    | getBusMv u => exact finishGetBusMv_effect polled rfl a u
    | getShuntUv u => exact finishGetShuntUv_effect polled rfl a u

/-- The verification of `BEGIN` after any calls (R171): the registry is written only on the default word. -/
theorem verifyAndPopulate_effect {s t : State} {es : List BusEvent} {ma : Word16} {sh : Word32}
    {c : Coefficients} (hc : deriveCoefficients ma sh = some c) (h : MadeCalls s t es)
    (hdev : t.dev = s.dev) (u : UnitId) (addr : BusAddr) :
    CommandEffect s (verifyAndPopulate u addr c t) := by
  have checked := h.trans (regRead_calls addr .config t)
  unfold verifyAndPopulate
  split
  · have stored := checked.then_setDev u (populatedRecord addr c)
    have written := stored.trans (regWrite_calls addr .calib c.cal _)
    refine .ends (written.endsWith _) ?_
    simpa [hdev] using RegistryUpdate.populated u addr hc
  · exact .of_respond checked hdev _

/-- `BEGIN` from its probe on (R171). -/
theorem probeAndPopulate_effect {s : State} {ma : Word16} {sh : Word32} {c : Coefficients}
    (hc : deriveCoefficients ma sh = some c) (u : UnitId) (addr : BusAddr) :
    CommandEffect s (probeAndPopulate u addr c s) := by
  have probed := probe_calls addr s
  unfold probeAndPopulate
  split
  · have reset := (probed.trans (regWrite_calls addr .config resetWord _)).trans (delay_calls _)
    exact verifyAndPopulate_effect hc reset rfl u addr
  · exact .of_respond probed rfl _

/-- `SET_MODE` (R131): the one command that writes the mode cache alone. -/
theorem setMode_effect (u : UnitId) (mode : Word16) (s : State) :
    ∃ t, exec (.setMode u mode) s = .next t ∧ CommandEffect s t :=
  ⟨_, rfl, .of_unit fun _ hd => .ends
    (((rmw_calls _ .config _ _ s).then_setDev u _).endsWith _) (.cached _ hd)⟩

/-- `BEGIN` (R171): two faults without a call, else the probe and what follows. -/
theorem begin_effect (u : UnitId) (addr : BusAddr) (ma : Word16) (sh : Word32) (s : State) :
    ∃ t, exec (.begin u addr ma sh) s = .next t ∧ CommandEffect s t := by
  rcases exec_begin_cases u addr ma sh s with ⟨_, h⟩ | ⟨_, _, h⟩ | ⟨c, _, hc, h⟩
  · exact ⟨_, h, .of_respond_self _ s⟩
  · exact ⟨_, h, .of_respond_self _ s⟩
  · exact ⟨_, h, probeAndPopulate_effect hc u addr⟩

/-- `DERIVE` (R101): a fault or a response, without a call. -/
theorem derive_effect (ma : Word16) (sh : Word32) (s : State) :
    ∃ t, exec (.derive ma sh) s = .next t ∧ CommandEffect s t := by
  rcases exec_derive_cases ma sh s with ⟨_, h⟩ | ⟨c, _, h⟩ <;> exact ⟨_, h, .of_respond_self _ s⟩

/-- Every command goes on, with one of the effects of `CommandEffect`. -/
theorem exec_effect (i : Instr) (s : State) : ∃ t, exec i s = .next t ∧ CommandEffect s t := by
  cases i with
  | begin u addr ma sh => exact begin_effect u addr ma sh s
  | derive ma sh => exact derive_effect ma sh s
  | scaleBus raw => exact ⟨_, rfl, .of_respond_self _ s⟩
  | scaleShunt raw => exact ⟨_, rfl, .of_respond_self _ s⟩
  | scaleCur u raw => exact ⟨_, rfl, .of_unit fun _ _ => .of_respond_self _ s⟩
  | scalePwr u raw => exact ⟨_, rfl, .of_unit fun _ _ => .of_respond_self _ s⟩
  | setMode u m => exact setMode_effect u m s
  | setAvg u n => exact ⟨_, rfl, .of_unit fun _ _ => .of_respond (rmw_calls _ .config _ _ s) rfl _⟩
  | setBusCt u k => exact ⟨_, rfl, .of_unit fun _ _ => .of_respond (rmw_calls _ .config _ _ s) rfl _⟩
  | setShuntCt u k => exact ⟨_, rfl, .of_unit fun _ _ => .of_respond (rmw_calls _ .config _ _ s) rfl _⟩
  | reset u =>
    exact ⟨_, rfl, .of_unit fun _ _ =>
      .of_respond ((regWrite_calls _ .config resetWord s).trans (delay_calls _)) rfl _⟩
  | waitConv u => exact ⟨_, rfl, .of_unit fun _ _ => pollOnce_effect (.inr trivial)⟩
  | setAlertCnvr u e =>
    cases e <;> exact ⟨_, rfl, .of_unit fun _ _ => .of_respond (rmw_calls _ .maskEn _ _ s) rfl _⟩
  | getBusMv u wait =>
    cases wait with
    | false => exact ⟨_, rfl, .of_unit fun d _ => finishGetBusMv_effect (.refl s) rfl d.busAddress u⟩
    | true => exact ⟨_, rfl, .of_unit fun _ hd => pollOnce_effect (.inr (lt_nUnits_of_getElem? hd))⟩
  | getShuntUv u wait =>
    cases wait with
    | false => exact ⟨_, rfl, .of_unit fun d _ => finishGetShuntUv_effect (.refl s) rfl d.busAddress u⟩
    | true => exact ⟨_, rfl, .of_unit fun _ hd => pollOnce_effect (.inr (lt_nUnits_of_getElem? hd))⟩
  | getCurUa u => exact ⟨_, rfl, .of_unit fun _ _ => .of_respond (regRead_calls _ .current s) rfl _⟩
  | getPwrUw u => exact ⟨_, rfl, .of_unit fun _ _ => .of_respond (regRead_calls _ .power s) rfl _⟩
  | getAddr u => exact ⟨_, rfl, .of_unit fun _ _ => .of_respond_self _ s⟩
  | getCal u => exact ⟨_, rfl, .of_unit fun _ _ => .of_respond_self _ s⟩
  | getClsb u => exact ⟨_, rfl, .of_unit fun _ _ => .of_respond_self _ s⟩
  | getPlsb u => exact ⟨_, rfl, .of_unit fun _ _ => .of_respond_self _ s⟩
  | getMode u => exact ⟨_, rfl, .of_unit fun _ _ => .of_respond_self _ s⟩

/-- The sequencer always goes on: it stays as it is, or has the effect of one command or poll, with perhaps
a word taken from the command port. -/
theorem advance_effect (s : State) :
    ∃ t, advance s = .next t ∧ (t = s ∨ ∃ rest, CommandEffect { s with commands := rest } t) := by
  rcases advance_cases s with
    ⟨a, next, ha, h⟩ | ⟨_, _, h⟩ | ⟨_, rest, i, _, _, _, h⟩ | ⟨_, rest, _, _, _, _, h⟩
  · exact ⟨_, h, .inr ⟨s.commands, pollOnce_effect (.inl ha)⟩⟩
  · exact ⟨s, h, .inl rfl⟩
  · obtain ⟨t, ht, effect⟩ := exec_effect i { s with commands := rest }
    exact ⟨t, h.trans ht, .inr ⟨rest, effect⟩⟩
  · exact ⟨_, h, .inr ⟨rest, .of_respond_self _ _⟩⟩

/-- Everything a step can do: stay but for the reset line, one command or poll, a reset in its place, or a
reset inside it. -/
theorem step_effect {s t : State} (h : step s = .next t) :
    t = nextSignal s ∨ (∃ rest, CommandEffect { nextSignal s with commands := rest } t) ∨
      t = hardReset (nextSignal s) ∨ ∃ n u, t = abandonAfter n (nextSignal s) u := by
  obtain ⟨t', ht', effect⟩ := advance_effect (nextSignal s)
  rcases step_cases s with ⟨_, hs⟩ | ⟨_, hs⟩ | ⟨n, _, hs⟩
  · obtain rfl : t' = t := by simpa [hs, ht'] using h
    exact effect.imp_right .inl
  · exact .inr (.inr (.inl (by simpa [hs, eq_comm] using h)))
  · exact .inr (.inr (.inr ⟨n, t', by simpa [hs, ht', mapNext, eq_comm] using h⟩))

end Sys2Proof.Machine
end

section
/-! The statements about every step: the invariant, what a step adds to the ports, the command a step
runs. -/

namespace Sys2Proof.Machine

/-! ### The invariant -/

/-- What the invariant asks of a record (R26). -/
def DeviceRecord.Sound (d : DeviceRecord) : Prop := d.unpopulated ∨ d.derived

/-- The mode cache does not enter (R28). -/
theorem DeviceRecord.Sound.withMode {d : DeviceRecord} (h : d.Sound) (m : ModeBits) :
    { d with operatingMode := m }.Sound := h

theorem populatedRecord_sound {ma : Word16} {sh : Word32} {c : Coefficients}
    (hc : deriveCoefficients ma sh = some c) (addr : BusAddr) : (populatedRecord addr c).Sound :=
  .inr ⟨ma, sh, hc⟩

theorem DeviceRecord.zero_sound : DeviceRecord.zero.Sound := .inl ⟨rfl, rfl, rfl, rfl⟩

theorem RegistryUpdate.length_eq {dev dev' : List DeviceRecord} (h : RegistryUpdate dev dev') :
    dev'.length = dev.length := by
  cases h <;> simp

theorem RegistryUpdate.keeps_sound {dev dev' : List DeviceRecord} (h : RegistryUpdate dev dev')
    (hs : ∀ d ∈ dev, d.Sound) : ∀ d ∈ dev', d.Sound := by
  cases h with
  | kept => exact hs
  | cached m hd =>
    intro x hx
    rcases List.mem_or_eq_of_mem_set hx with hx | rfl
    · exact hs x hx
    · exact (hs _ (List.mem_of_getElem? hd)).withMode m
  | populated u addr hc =>
    intro x hx
    rcases List.mem_or_eq_of_mem_set hx with hx | rfl
    · exact hs x hx
    · exact populatedRecord_sound hc addr

theorem CommandEffect.nUnits_eq {s t : State} (h : CommandEffect s t) : t.nUnits = s.nUnits := by
  cases h with
  | ends h hdev => rw [State.nUnits, h.dev, hdev.length_eq, State.nUnits]
  | waits h _ => rw [State.nUnits, h.dev, State.nUnits]

theorem CommandEffect.params_eq {s t : State} (h : CommandEffect s t) : t.params = s.params := by
  cases h with
  | ends h _ => exact h.params
  | waits h _ => exact h.params

theorem CommandEffect.keeps_inv {s t : State} (h : CommandEffect s t) (hs : s.Inv) : t.Inv where
  params := h.params_eq ▸ hs.params
  units := h.nUnits_eq ▸ hs.units
  records := by
    cases h with
    | ends h hdev => exact h.dev ▸ hdev.keeps_sound hs.records
    | waits h _ => exact h.dev ▸ hs.records
  waiting := by
    rw [h.nUnits_eq]
    cases h with
    | ends h _ => rw [h.activity]; trivial
    | waits h hunit =>
      rw [h.activity]
      exact hunit.elim (fun ha => ha ▸ hs.waiting) id

/-- The invariant reads the parameters, the registry and the command in progress, nothing else. -/
theorem State.Inv.congr {s t : State} (hs : s.Inv) (hp : t.params = s.params) (hd : t.dev = s.dev)
    (ha : t.activity = s.activity) : t.Inv where
  params := hp ▸ hs.params
  units := by rw [State.nUnits, hd]; exact hs.units
  records := hd ▸ hs.records
  waiting := by rw [State.nUnits, hd, ha]; exact hs.waiting

/-- A zeroed registry of as many records and an idle sequencer have the invariant, wherever they come
from (R210). -/
theorem State.Inv.of_zeroed {s t : State} (hs : s.Inv) (hp : t.params = s.params)
    (hd : t.dev = s.dev.map fun _ => DeviceRecord.zero) (ha : t.activity = .idle) : t.Inv where
  params := hp ▸ hs.params
  units := by simpa [State.nUnits, hd] using hs.units
  records := by
    intro d hmem
    rw [hd] at hmem
    obtain ⟨_, _, rfl⟩ := List.mem_map.mp hmem
    exact DeviceRecord.zero_sound
  waiting := by rw [ha]; trivial

/-- Settles O55: what a step can do is `step_effect`; a command or poll keeps the invariant, and the two ways
of reset leave a zeroed registry. -/
theorem stepKeepsTheInvariant : Obligations.StepKeepsTheInvariant := by
  intro s t hs hstep
  rcases step_effect hstep with rfl | ⟨_, effect⟩ | rfl | ⟨_, _, rfl⟩
  · exact hs.congr rfl rfl rfl
  · exact effect.keeps_inv (hs.congr rfl rfl rfl)
  · exact hs.of_zeroed rfl rfl rfl
  · exact hs.of_zeroed rfl rfl rfl

/-- Settles O54. -/
theorem resetStateHasTheInvariant : Obligations.ResetStateHasTheInvariant where
  params := by decide
  units := by decide
  records := fun _ hd => List.eq_of_mem_replicate hd ▸ DeviceRecord.zero_sound
  waiting := trivial

/-! ### The ports -/

/-- `t` has the parameters and the number of records of `s`, and its ports are those of `s` with calls and at
most one response added at the end. -/
def OnlyAdds (s t : State) : Prop :=
  (∃ es, t.trace = s.trace ++ es) ∧
    (∃ rs : List Response, t.responses = s.responses ++ rs ∧ rs.length ≤ 1) ∧
    t.params = s.params ∧ t.nUnits = s.nUnits

theorem OnlyAdds.of_no_response {s t : State} {es : List BusEvent} (ht : t.trace = s.trace ++ es)
    (hr : t.responses = s.responses) (hp : t.params = s.params) (hn : t.nUnits = s.nUnits) :
    OnlyAdds s t :=
  ⟨⟨es, ht⟩, ⟨[], by simp [hr], by simp⟩, hp, hn⟩

theorem CommandEffect.onlyAdds {s t : State} (h : CommandEffect s t) : OnlyAdds s t := by
  have hp := h.params_eq
  have hn := h.nUnits_eq
  cases h with
  | ends h _ => exact ⟨⟨_, h.trace⟩, ⟨[_], h.responses, by simp⟩, hp, hn⟩
  | waits h _ => exact .of_no_response h.trace h.responses hp hn

/-- A command or poll adds its calls and at most one response; a reset adds no response, and inside a step
the calls already made (R211). -/
theorem step_onlyAdds {s t : State} (hstep : step s = .next t) : OnlyAdds s t := by
  rcases step_effect hstep with rfl | ⟨_, effect⟩ | rfl | ⟨n, u, rfl⟩
  · exact .of_no_response (List.append_nil _).symm rfl rfl rfl
  · exact effect.onlyAdds
  · exact .of_no_response (List.append_nil _).symm rfl rfl (by simp [State.nUnits])
  · obtain ⟨htrace, hresp, hdev, _, hparams, _⟩ := abandonAfter_fields n (nextSignal s) u
    exact .of_no_response htrace hresp hparams (by simp [State.nUnits, hdev])

/-- Settles O50, from `step_onlyAdds`. -/
theorem stepsOnlyAddToThePorts : Obligations.StepsOnlyAddToThePorts :=
  fun _ _ => step_onlyAdds

/-! ### The command a step runs -/

/-- An idle sequencer runs the command the next word decodes to (R9, R75). -/
theorem advance_of_decode {s : State} {w : CmdWord} {rest : List CmdWord} {i : Instr}
    (ha : s.activity = .idle) (hc : s.commands = w :: rest) (hd : decode w = .ok i) :
    advance s = exec i { s with commands := rest } := by
  simp [advance, takeCommand, runWord, ha, hc, hd]

/-- Settles O7: the reset signal decides what becomes of `advance_of_decode`. -/
theorem stepRunsTheDecodedCommand : Obligations.StepRunsTheDecodedCommand := by
  intro s w rest i ha hc hd
  have hadv : advance (nextSignal s) = exec i { nextSignal s with commands := rest } :=
    advance_of_decode ha hc hd
  exact ⟨fun hlow => by simp [step, hlow, hadv], fun n hin => by simp [step, hin, hadv]⟩

end Sys2Proof.Machine
end

section
/-! The registry over steps and runs: what every step keeps of every record, packaged once; with it the
ranges of R46, from step to step and from reset on; and the values at reset. -/

namespace Sys2Proof.Machine

/-! ### A property of the records, over a step and over a run -/

/-- A property of a record that neither `SET_MODE`, `BEGIN` nor a reset can break. -/
structure KeptByUpdates (P : DeviceRecord → Prop) : Prop where
  zero : P DeviceRecord.zero
  withMode : ∀ (d : DeviceRecord) (m : ModeBits), P d → P { d with operatingMode := m }
  populated : ∀ (ma : Word16) (sh : Word32) (c : Coefficients) (addr : BusAddr),
    deriveCoefficients ma sh = some c → P (populatedRecord addr c)

theorem RegistryUpdate.keeps_records {P : DeviceRecord → Prop} (hP : KeptByUpdates P)
    {dev dev' : List DeviceRecord} (h : RegistryUpdate dev dev') (hs : ∀ d ∈ dev, P d) :
    ∀ d ∈ dev', P d := by
  cases h with
  | kept => exact hs
  | cached m hd =>
    intro x hx
    rcases List.mem_or_eq_of_mem_set hx with hx | rfl
    · exact hs x hx
    · exact hP.withMode _ m (hs _ (List.mem_of_getElem? hd))
  | populated u addr hc =>
    intro x hx
    rcases List.mem_or_eq_of_mem_set hx with hx | rfl
    · exact hs x hx
    · exact hP.populated _ _ _ addr hc

theorem CommandEffect.registryUpdate {s t : State} (h : CommandEffect s t) :
    RegistryUpdate s.dev t.dev := by
  cases h with
  | ends h hdev => exact h.dev ▸ hdev
  | waits h _ => exact h.dev ▸ .kept

/-- Both ways of reset leave zeroed records alone; a command or poll makes one `RegistryUpdate`. -/
theorem step_keeps_records {P : DeviceRecord → Prop} (hP : KeptByUpdates P) {s t : State}
    (hs : ∀ d ∈ s.dev, P d) (hstep : step s = .next t) : ∀ d ∈ t.dev, P d := by
  have zeroed : ∀ d ∈ s.dev.map fun _ => DeviceRecord.zero, P d := by
    intro d hd
    obtain ⟨_, _, rfl⟩ := List.mem_map.mp hd
    exact hP.zero
  rcases step_effect hstep with rfl | ⟨_, effect⟩ | rfl | ⟨_, _, rfl⟩
  · exact hs
  · exact effect.registryUpdate.keeps_records hP hs
  · exact zeroed
  · exact zeroed

/-- No step stops the machine (R194, R198). -/
theorem exists_step (s : State) : ∃ t, step s = .next t := by
  obtain ⟨t, ht, _⟩ := advance_effect (nextSignal s)
  rcases step_cases s with ⟨_, hs⟩ | ⟨_, hs⟩ | ⟨n, _, hs⟩
  · exact ⟨t, hs.trans ht⟩
  · exact ⟨_, hs⟩
  · exact ⟨_, by rw [hs, ht, mapNext]⟩

/-- What every step keeps, every run keeps. -/
theorem run_induction {P : State → Prop} (hstep : ∀ s t, P s → step s = .next t → P t) {n : Nat} :
    ∀ {s t : State}, P s → Host.Core.run core n s = .next t → P t := by
  induction n with
  | zero =>
    intro s t hs hrun
    obtain rfl : s = t := Host.Outcome.next.inj hrun
    exact hs
  | succ n ih =>
    intro s t hs hrun
    obtain ⟨s', hs'⟩ := exists_step s
    rw [run_succ_of_step n hs'] at hrun
    exact ih (hstep s s' hs hs') hrun

/-! ### The ranges of R46 -/

theorem clsbOf_le (ma : Word16) : clsbOf ma ≤ 2000030 := by
  have := ma.isLt
  rw [← clsbOf_fold]
  omega

/-- One milliamp already gives 30 nanoamps per count (R46). -/
theorem le_clsbOf_of_ne_zero {ma : Word16} (h : clsbOf ma ≠ 0) : 30 ≤ clsbOf ma := by
  rw [← clsbOf_fold] at h ⊢
  omega

/-- A divisor that is not 0 needs a coefficient that is not 0 (R109). -/
theorem clsbOf_ne_zero_of_divisorOf {ma : Word16} {sh : Word32} (h : divisorOf ma sh ≠ 0) :
    clsbOf ma ≠ 0 := by
  intro hz
  rw [← divisorOf_fold, hz] at h
  simp at h

/-- What `Derive` results in is in the ranges of R46, and its 32-bit fields lose nothing. -/
theorem populatedRecord_inRange {ma : Word16} {sh : Word32} {c : Coefficients} (addr : BusAddr)
    (hc : deriveCoefficients ma sh = some c) : (populatedRecord addr c).inRange := by
  obtain ⟨hdiv, rfl⟩ := (deriveCoefficients_eq_some_iff ma sh c).mp hc
  have hle := clsbOf_le ma
  have hge := le_clsbOf_of_ne_zero (clsbOf_ne_zero_of_divisorOf hdiv)
  have hplsb := plsbOf_fold ma
  have hclsb32 : (BitVec.ofNat 32 (clsbOf ma)).toNat = clsbOf ma := by
    rw [BitVec.toNat_ofNat, Nat.mod_eq_of_lt (by omega)]
  have hplsb32 : (BitVec.ofNat 32 (plsbOf ma)).toNat = plsbOf ma := by
    rw [BitVec.toNat_ofNat, Nat.mod_eq_of_lt (by omega)]
  simp only [DeviceRecord.inRange, populatedRecord, hclsb32, hplsb32]
  exact ⟨hle, by omega, by omega, .inr hge⟩

theorem zero_inRange : DeviceRecord.zero.inRange := by
  simp [DeviceRecord.inRange, DeviceRecord.zero]

/-- The mode cache has no range of its own (R46). -/
theorem inRange_keptByUpdates : KeptByUpdates DeviceRecord.inRange where
  zero := zero_inRange
  withMode := fun _ _ h => h
  populated := fun _ _ _ addr hc => populatedRecord_inRange addr hc

/-- Settles O57: the ranges are kept by every update of the registry. -/
theorem stepKeepsTheFieldsInRange : Obligations.StepKeepsTheFieldsInRange :=
  ⟨fun _ hd => List.eq_of_mem_replicate hd ▸ zero_inRange,
    fun _ _ => step_keeps_records inRange_keptByUpdates⟩

/-- Settles O56: the step lemma along the run, from zeroed records. -/
theorem reachableStatesKeepTheFieldsInRange : Obligations.ReachableStatesKeepTheFieldsInRange := by
  intro p k cs e l n t _ _ _ hrun
  refine run_induction (P := fun s => ∀ d ∈ s.dev, d.inRange)
    (fun _ _ => step_keeps_records inRange_keptByUpdates) ?_ hrun
  exact fun _ hd => List.eq_of_mem_replicate hd ▸ zero_inRange

/-- Settles O10. -/
theorem resetStateHoldsTheTabledValues : Obligations.ResetStateHoldsTheTabledValues := by
  refine ⟨by decide, fun d hd => ?_, rfl⟩
  obtain rfl := List.eq_of_mem_replicate hd
  exact ⟨rfl, rfl, rfl, rfl, rfl⟩

end Sys2Proof.Machine
end

section
/-! Every bus-master call of every command, in order, as a function of the command and the state it begins
in, tied to `exec` by `exec_trace`; what it makes of the registry; and where a command is left waiting. -/

namespace Sys2Proof.Machine

/-! ### Polls and the end of a wait -/

/-- The two calls of `Rmw` on a register that answers `w` (R130). -/
def rmwCalls (a : BusAddr) (r : Reg) (clear set w : Word16) : List BusEvent :=
  [.read a r w, .write a r (rmwWord clear set w)]

theorem rmw_trace (a : BusAddr) (r : Reg) (clear set : Word16) (s : State) :
    (rmw a r clear set s).trace = s.trace ++ rmwCalls a r clear set s.readAnswer :=
  (rmw_calls a r clear set s).trace

/-- The calls of a voltage read after its wait: the data read, and the re-trigger where `again` asks for one
(R156, R158, R160). -/
def dataReadCalls (a : BusAddr) (r : Reg) (again : Bool) (s : State) : List BusEvent :=
  .read a r s.readAnswer :: if again then rmwCalls a .config 0 0 (s.answerAt 1 1) else []

theorem dataRead_trace (a : BusAddr) (r : Reg) (again : Bool) (s : State) :
    (if again then retrigger a (regRead a r s) else regRead a r s).trace =
      s.trace ++ dataReadCalls a r again s := by
  cases again with
  | false => rfl
  | true =>
    simp [retrigger, rmw_trace, dataReadCalls, readAnswer_eq_answerAt, answerAt_regRead]

/-- The calls that follow a wait. -/
def afterWaitCalls (a : BusAddr) (next : AfterWait) (s : State) : List BusEvent :=
  match next with
  | .waitConv => []
  | .getBusMv u =>
    (s.dev[u.toNat]?).elim [] fun d => dataReadCalls a .busV (retriggersBus d.operatingMode) s
  | .getShuntUv u =>
    (s.dev[u.toNat]?).elim [] fun d => dataReadCalls a .shuntV (retriggersShunt d.operatingMode) s

/-- The calls of one poll and of what follows it where it sees the ready bit (R147). -/
def pollCalls (a : BusAddr) (next : AfterWait) (s : State) : List BusEvent :=
  .read a .maskEn s.readAnswer ::
    if conversionReady s.params s.readAnswer then afterWaitCalls a next (regRead a .maskEn s) else []

/-- The calls of a command that looks at its wait flag: a poll with it, and none without (R156, R158). -/
def readCalls (a : BusAddr) (next : AfterWait) (wait : Bool) (s : State) : List BusEvent :=
  if wait then pollCalls a next s else afterWaitCalls a next s

/-- The unit lookup's calls: none on a unit without a record (R191). -/
theorem withUnit_trace {u : UnitId} {s : State} {k : DeviceRecord → State}
    {calls : DeviceRecord → List BusEvent} (hk : ∀ d, (k d).trace = s.trace ++ calls d) :
    (withUnit u s k).trace = s.trace ++ (s.dev[u.toNat]?).elim [] calls := by
  rcases withUnit_cases u s k with ⟨d, hd, hw⟩ | ⟨_, hd, hw⟩ <;> rw [hw, hd]
  · exact hk d
  · exact (List.append_nil _).symm

/-- Whatever the unit lookup and its fault leave alone stays where what follows leaves it alone. -/
theorem withUnit_keeps {α : Type} (f : State → α) {u : UnitId} {s : State} {k : DeviceRecord → State}
    {x : α} (hraise : f (raise .errUnit s) = x) (hk : ∀ d, f (k d) = x) : f (withUnit u s k) = x := by
  rcases withUnit_cases u s k with ⟨d, _, hw⟩ | ⟨_, _, hw⟩ <;> rw [hw]
  · exact hk d
  · exact hraise

theorem afterWait_trace (a : BusAddr) (next : AfterWait) (s : State) :
    (afterWait a next s).trace = s.trace ++ afterWaitCalls a next s := by
  cases next with
  | waitConv => exact (List.append_nil _).symm
  | getBusMv u => exact withUnit_trace fun d => dataRead_trace a .busV (retriggersBus d.operatingMode) s
  | getShuntUv u =>
    exact withUnit_trace fun d => dataRead_trace a .shuntV (retriggersShunt d.operatingMode) s

theorem pollOnce_trace (a : BusAddr) (next : AfterWait) (s : State) :
    (pollOnce a next s).trace = s.trace ++ pollCalls a next s := by
  rcases pollOnce_cases a next s with ⟨hready, hp⟩ | ⟨hready, hp⟩ <;> rw [hp, pollCalls, hready]
  · rfl
  · simp [afterWait_trace]

theorem read_trace (a : BusAddr) (next : AfterWait) (wait : Bool) (s : State) :
    (if wait then pollOnce a next s else afterWait a next s).trace = s.trace ++ readCalls a next wait s := by
  cases wait with
  | true => exact pollOnce_trace a next s
  | false => exact afterWait_trace a next s

@[simp] theorem rmw_dev (a : BusAddr) (r : Reg) (clear set : Word16) (s : State) :
    (rmw a r clear set s).dev = s.dev := rfl

@[simp] theorem retrigger_dev (a : BusAddr) (s : State) : (retrigger a s).dev = s.dev := rfl

/-- What follows a wait writes no record (R147, R156, R158). -/
theorem afterWait_dev (a : BusAddr) (next : AfterWait) (s : State) : (afterWait a next s).dev = s.dev := by
  cases next with
  | waitConv => rfl
  | getBusMv u => exact withUnit_keeps State.dev rfl fun d => by simp [apply_ite State.dev]
  | getShuntUv u => exact withUnit_keeps State.dev rfl fun d => by simp [apply_ite State.dev]

theorem pollOnce_dev (a : BusAddr) (next : AfterWait) (s : State) : (pollOnce a next s).dev = s.dev := by
  rcases pollOnce_cases a next s with ⟨_, hp⟩ | ⟨_, hp⟩ <;> rw [hp]
  · rfl
  · exact afterWait_dev a next _

theorem read_dev (a : BusAddr) (next : AfterWait) (wait : Bool) (s : State) :
    (if wait then pollOnce a next s else afterWait a next s).dev = s.dev := by
  cases wait with
  | true => exact pollOnce_dev a next s
  | false => exact afterWait_dev a next s

theorem afterWait_activity (a : BusAddr) (next : AfterWait) (s : State) :
    (afterWait a next s).activity = .idle := by
  cases next with
  | waitConv => rfl
  | getBusMv u => exact withUnit_keeps State.activity rfl fun _ => rfl
  | getShuntUv u => exact withUnit_keeps State.activity rfl fun _ => rfl

/-- A poll ends its command exactly on a word with the ready bit (R148). -/
theorem pollOnce_idle_iff (a : BusAddr) (next : AfterWait) (s : State) :
    (pollOnce a next s).activity = .idle ↔ conversionReady s.params s.readAnswer = true := by
  rcases pollOnce_cases a next s with ⟨hready, hp⟩ | ⟨hready, hp⟩ <;> rw [hp, hready]
  · simp
  · simp [afterWait_activity]

/-! ### The calls of every command -/

/-- The calls of `BEGIN` once its coefficients are derived (R171). -/
def beginCalls (addr : BusAddr) (c : Coefficients) (s : State) : List BusEvent :=
  if s.probeAnswer then
    [.probe addr true, .write addr .config resetWord, .delay, .read addr .config (s.answerAt 0 2)] ++
      if s.answerAt 0 2 = s.params.configDefault then [.write addr .calib c.cal] else []
  else [.probe addr false]

theorem probeAndPopulate_trace (u : UnitId) (addr : BusAddr) (c : Coefficients) (s : State) :
    (probeAndPopulate u addr c s).trace = s.trace ++ beginCalls addr c s := by
  cases hack : s.probeAnswer with
  | false => simp [probeAndPopulate_noAck u addr c hack, beginCalls, hack]
  | true =>
    obtain ⟨_, htrace, _⟩ := probeAndPopulate_ack u addr c hack
    simp [htrace, beginCalls, hack]

/-- The calls a command makes once its unit's record `d` is found. -/
def recordCalls (i : Instr) (s : State) (d : DeviceRecord) : List BusEvent :=
  match i with
  | .begin _ addr ma sh => (deriveCoefficients ma sh).elim [] fun c => beginCalls addr c s
  | .setMode _ m => rmwCalls d.busAddress .config modeMask (modeOperand m) s.readAnswer
  | .setAvg _ n => rmwCalls d.busAddress .config avgMask (avgIndex n <<< 9) s.readAnswer
  | .setBusCt _ k => rmwCalls d.busAddress .config busCtMask (clampCode k <<< 6) s.readAnswer
  | .setShuntCt _ k => rmwCalls d.busAddress .config shuntCtMask (clampCode k <<< 3) s.readAnswer
  | .reset _ => [.write d.busAddress .config resetWord, .delay]
  | .waitConv _ => pollCalls d.busAddress .waitConv s
  | .setAlertCnvr _ true => rmwCalls d.busAddress .maskEn 0 (alertBit s.params) s.readAnswer
  | .setAlertCnvr _ false => rmwCalls d.busAddress .maskEn (alertBit s.params) 0 s.readAnswer
  | .getBusMv u wait => readCalls d.busAddress (.getBusMv u) wait s
  | .getShuntUv u wait => readCalls d.busAddress (.getShuntUv u) wait s
  | .getCurUa _ => [.read d.busAddress .current s.readAnswer]
  | .getPwrUw _ => [.read d.busAddress .power s.readAnswer]
  | .derive _ _ | .scaleBus _ | .scaleShunt _ | .scaleCur _ _ | .scalePwr _ _ | .getAddr _ | .getCal _
  | .getClsb _ | .getPlsb _ | .getMode _ => []

/-- The record a command's unit names. -/
def recordOf (i : Instr) (s : State) : Option DeviceRecord := (unitOf i).bind fun u => s.dev[u.toNat]?

/-- The calls of a command: none without a record (R191; the commands without a unit make none). -/
def commandCalls (i : Instr) (s : State) : List BusEvent := (recordOf i s).elim [] (recordCalls i s)

theorem recordOf_eq {i : Instr} {u : UnitId} {s : State} (hi : unitOf i = some u) :
    recordOf i s = s.dev[u.toNat]? := by
  rw [recordOf, hi, Option.bind_some]

theorem commandCalls_of_record {i : Instr} {s : State} {d : DeviceRecord} (h : recordOf i s = some d) :
    commandCalls i s = recordCalls i s d := by
  rw [commandCalls, h, Option.elim_some]

theorem commandCalls_of_no_record {i : Instr} {s : State} (h : recordOf i s = none) :
    commandCalls i s = [] := by
  rw [commandCalls, h, Option.elim_none]

/-- Rewrite with this rather than unfold `recordCalls` at `BEGIN`: the kernel should not evaluate `Derive`
on variables. -/
theorem recordCalls_begin (u : UnitId) (addr : BusAddr) (ma : Word16) (sh : Word32) (s : State)
    (d : DeviceRecord) :
    recordCalls (.begin u addr ma sh) s d =
      (deriveCoefficients ma sh).elim [] fun c => beginCalls addr c s := rfl

/-- The calls of `BEGIN` (R171): none before its two faults. -/
theorem exec_begin_trace {u : UnitId} {addr : BusAddr} {ma : Word16} {sh : Word32} {s t : State}
    (h : exec (.begin u addr ma sh) s = .next t) :
    t.trace = s.trace ++ commandCalls (.begin u addr ma sh) s := by
  have hrec : recordOf (.begin u addr ma sh) s = s.dev[u.toNat]? := recordOf_eq rfl
  rcases exec_begin_cases u addr ma sh s with ⟨hu, h'⟩ | ⟨hu, hdiv, h'⟩ | ⟨c, hu, hc, h'⟩ <;>
    obtain rfl := Host.Outcome.next.inj (h'.symm.trans h)
  · rw [commandCalls_of_no_record (hrec.trans (List.getElem?_eq_none hu))]
    exact (List.append_nil _).symm
  · obtain ⟨d, hd⟩ := exists_record hu
    rw [commandCalls_of_record (hrec.trans hd), recordCalls_begin,
      (deriveCoefficients_eq_none_iff ma sh).mpr hdiv]
    exact (List.append_nil _).symm
  · obtain ⟨d, hd⟩ := exists_record hu
    rw [commandCalls_of_record (hrec.trans hd), recordCalls_begin, hc, probeAndPopulate_trace]
    rfl

/-- The calls a command makes are those of `commandCalls`. -/
theorem exec_trace {i : Instr} {s t : State} (h : exec i s = .next t) :
    t.trace = s.trace ++ commandCalls i s := by
  have noCall : s.trace = s.trace ++ [] := (List.append_nil _).symm
  cases i with
  | derive ma sh =>
    rcases exec_derive_cases ma sh s with ⟨_, h'⟩ | ⟨_, _, h'⟩ <;>
      obtain rfl := Host.Outcome.next.inj (h'.symm.trans h) <;> exact noCall
  | begin u addr ma sh => exact exec_begin_trace h
  | scaleBus _ | scaleShunt _ =>
    obtain rfl := Host.Outcome.next.inj h
    exact noCall
  | setMode _ _ | setAvg _ _ | setBusCt _ _ | setShuntCt _ _ =>
    obtain rfl := Host.Outcome.next.inj h
    exact withUnit_trace fun d => rmw_trace d.busAddress .config _ _ s
  | reset _ =>
    obtain rfl := Host.Outcome.next.inj h
    exact withUnit_trace fun d => by simp [recordCalls]
  | waitConv _ =>
    obtain rfl := Host.Outcome.next.inj h
    exact withUnit_trace fun d => pollOnce_trace d.busAddress .waitConv s
  | setAlertCnvr _ e =>
    obtain rfl := Host.Outcome.next.inj h
    cases e <;> exact withUnit_trace fun d => rmw_trace d.busAddress .maskEn _ _ s
  | getBusMv u wait =>
    obtain rfl := Host.Outcome.next.inj h
    exact withUnit_trace fun d => read_trace d.busAddress (.getBusMv u) wait s
  | getShuntUv u wait =>
    obtain rfl := Host.Outcome.next.inj h
    exact withUnit_trace fun d => read_trace d.busAddress (.getShuntUv u) wait s
  | getCurUa _ | getPwrUw _ =>
    obtain rfl := Host.Outcome.next.inj h
    exact withUnit_trace fun _ => rfl
  | scaleCur _ _ | scalePwr _ _ | getAddr _ | getCal _ | getClsb _ | getPlsb _ | getMode _ =>
    obtain rfl := Host.Outcome.next.inj h
    exact withUnit_trace fun _ => noCall

theorem newEvents_of_trace {s t : State} {es : List BusEvent} (h : t.trace = s.trace ++ es) :
    newEvents s t = es := by
  simp [newEvents, h]

theorem newEvents_exec {i : Instr} {s t : State} (h : exec i s = .next t) :
    newEvents s t = commandCalls i s :=
  newEvents_of_trace (exec_trace h)

theorem newEvents_pollOnce (a : BusAddr) (next : AfterWait) (s : State) :
    newEvents s (pollOnce a next s) = pollCalls a next s :=
  newEvents_of_trace (pollOnce_trace a next s)

/-- A command that makes a call found the record of its unit. -/
theorem exists_record_of_mem_commandCalls {i : Instr} {s : State} {e : BusEvent}
    (h : e ∈ commandCalls i s) : ∃ d, recordOf i s = some d ∧ e ∈ recordCalls i s d := by
  cases hd : recordOf i s with
  | none => simp [commandCalls_of_no_record hd] at h
  | some d => exact ⟨d, rfl, commandCalls_of_record hd ▸ h⟩

/-! ### The registry -/

/-- `SET_MODE` writes the mode cache of its record, if there is one, and nothing else (R131). -/
theorem exec_setMode_dev {u : UnitId} {m : Word16} {s t : State} (h : exec (.setMode u m) s = .next t) :
    t.dev = s.dev.modify u.toNat fun d => { d with operatingMode := modeCache m } := by
  obtain rfl := Host.Outcome.next.inj h
  rw [List.modify_eq_set_getElem?]
  cases hd : s.dev[u.toNat]? with
  | none =>
    rw [withUnit_none hd]
    rfl
  | some d =>
    rw [withUnit_some hd]
    rfl

theorem probeAndPopulate_dev (u : UnitId) (addr : BusAddr) (c : Coefficients) (s : State) :
    (probeAndPopulate u addr c s).dev = s.dev ∨
      (probeAndPopulate u addr c s).dev = s.dev.set u.toNat (populatedRecord addr c) := by
  cases hack : s.probeAnswer with
  | false => exact .inl (by simp [probeAndPopulate_noAck u addr c hack])
  | true =>
    obtain ⟨hdev, _, _⟩ := probeAndPopulate_ack u addr c hack
    by_cases hdef : s.answerAt 0 2 = s.params.configDefault
    · exact .inr (by rw [hdev, if_pos hdef])
    · exact .inl (by rw [hdev, if_neg hdef])

/-- `BEGIN` writes its unit's record or none (R171). -/
theorem exec_begin_dev {u : UnitId} {addr : BusAddr} {ma : Word16} {sh : Word32} {s t : State}
    (h : exec (.begin u addr ma sh) s = .next t) :
    t.dev = s.dev ∨ ∃ d, t.dev = s.dev.set u.toNat d := by
  rcases exec_begin_cases u addr ma sh s with ⟨_, h'⟩ | ⟨_, _, h'⟩ | ⟨c, _, _, h'⟩ <;>
    obtain rfl := Host.Outcome.next.inj (h'.symm.trans h)
  · exact .inl rfl
  · exact .inl rfl
  · exact (probeAndPopulate_dev u addr c s).imp_right fun hdev => ⟨_, hdev⟩

/-- The other commands write no record (R29). -/
theorem exec_dev_kept {i : Instr} {s t : State} (h : exec i s = .next t)
    (hbegin : ∀ u a ma sh, i ≠ .begin u a ma sh) (hmode : ∀ u m, i ≠ .setMode u m) : t.dev = s.dev := by
  cases i with
  | begin u addr ma sh => exact absurd rfl (hbegin u addr ma sh)
  | setMode u m => exact absurd rfl (hmode u m)
  | derive ma sh =>
    rcases exec_derive_cases ma sh s with ⟨_, h'⟩ | ⟨_, _, h'⟩ <;>
      obtain rfl := Host.Outcome.next.inj (h'.symm.trans h) <;> rfl
  | scaleBus _ | scaleShunt _ =>
    obtain rfl := Host.Outcome.next.inj h
    rfl
  | setAlertCnvr _ e =>
    obtain rfl := Host.Outcome.next.inj h
    cases e <;> exact withUnit_keeps State.dev rfl fun _ => rfl
  | waitConv _ =>
    obtain rfl := Host.Outcome.next.inj h
    exact withUnit_keeps State.dev rfl fun d => pollOnce_dev d.busAddress .waitConv s
  | getBusMv u wait =>
    obtain rfl := Host.Outcome.next.inj h
    exact withUnit_keeps State.dev rfl fun d => read_dev d.busAddress (.getBusMv u) wait s
  | getShuntUv u wait =>
    obtain rfl := Host.Outcome.next.inj h
    exact withUnit_keeps State.dev rfl fun d => read_dev d.busAddress (.getShuntUv u) wait s
  | scaleCur _ _ | scalePwr _ _ | setAvg _ _ | setBusCt _ _ | setShuntCt _ _ | reset _ | getCurUa _
  | getPwrUw _ | getAddr _ | getCal _ | getClsb _ | getPlsb _ | getMode _ =>
    obtain rfl := Host.Outcome.next.inj h
    exact withUnit_keeps State.dev rfl fun _ => rfl

/-- A command leaves every record but its unit's (R20). -/
theorem exec_dev_other {i : Instr} {s t : State} (h : exec i s = .next t) {k : Nat}
    (hk : ∀ u, unitOf i = some u → u.toNat ≠ k) : t.dev[k]? = s.dev[k]? := by
  by_cases hmode : ∃ u m, i = .setMode u m
  · obtain ⟨u, m, rfl⟩ := hmode
    rw [exec_setMode_dev h, List.getElem?_modify_ne _ _ (hk u rfl)]
  · by_cases hbegin : ∃ u a ma sh, i = .begin u a ma sh
    · obtain ⟨u, a, ma, sh, rfl⟩ := hbegin
      rcases exec_begin_dev h with hdev | ⟨d, hdev⟩ <;> rw [hdev]
      exact List.getElem?_set_ne (hk u rfl)
    · push Not at hmode hbegin
      rw [exec_dev_kept h hbegin hmode]

/-- Settles O47, from what each command writes. -/
theorem onlyBeginAndSetModeWriteTheRegistry : Obligations.OnlyBeginAndSetModeWriteTheRegistry := by
  refine ⟨pollOnce_dev, fun i s t h => ⟨?_, fun k => exec_dev_other h, exec_dev_kept h, ?_⟩⟩
  · obtain ⟨t', ht', effect⟩ := exec_effect i s
    obtain rfl := Host.Outcome.next.inj (ht'.symm.trans h)
    exact effect.nUnits_eq
  · rintro u m rfl
    rw [exec_setMode_dev h, List.getElem?_modify_eq, Option.map_eq_map, Option.map_map]
    rfl

/-! ### Where the calls go -/

theorem rmwCalls_address {a : BusAddr} {r : Reg} {clear set w : Word16} :
    ∀ e ∈ rmwCalls a r clear set w, e.address = some a := by
  simp [rmwCalls, BusEvent.address]

theorem dataReadCalls_address {a : BusAddr} {r : Reg} {again : Bool} {s : State} :
    ∀ e ∈ dataReadCalls a r again s, e.address = some a := by
  cases again <;> simp [dataReadCalls, rmwCalls, BusEvent.address]

theorem afterWaitCalls_address {a : BusAddr} {next : AfterWait} {s : State} :
    ∀ e ∈ afterWaitCalls a next s, e.address = some a := by
  cases next with
  | waitConv => simp [afterWaitCalls]
  | getBusMv u | getShuntUv u =>
    cases hd : s.dev[u.toNat]? with
    | none => simp [afterWaitCalls, hd]
    | some d => simpa [afterWaitCalls, hd] using dataReadCalls_address

theorem pollCalls_address {a : BusAddr} {next : AfterWait} {s : State} :
    ∀ e ∈ pollCalls a next s, e.address = some a := by
  intro e he
  rcases List.mem_cons.mp he with rfl | he
  · rfl
  · split at he
    · exact afterWaitCalls_address e he
    · cases he

theorem readCalls_address {a : BusAddr} {next : AfterWait} {wait : Bool} {s : State} :
    ∀ e ∈ readCalls a next wait s, e.address = some a := by
  cases wait with
  | true => exact pollCalls_address
  | false => exact afterWaitCalls_address

theorem beginCalls_address {addr : BusAddr} {c : Coefficients} {s : State} :
    ∀ e ∈ beginCalls addr c s, e = .delay ∨ e.address = some addr := by
  cases hack : s.probeAnswer with
  | false => simp [beginCalls, hack, BusEvent.address]
  | true =>
    by_cases hdef : s.answerAt 0 2 = s.params.configDefault <;>
      simp [beginCalls, hack, hdef, BusEvent.address]

theorem targetOf_of_record {i : Instr} {s : State} {d : DeviceRecord} (hd : recordOf i s = some d)
    (hbegin : ∀ u a ma sh, i ≠ .begin u a ma sh) : targetOf i s = some d.busAddress := by
  have h : targetOf i s = (recordOf i s).map DeviceRecord.busAddress := by
    rw [recordOf, Option.map_bind]
    cases i with
    | begin u addr ma sh => exact absurd rfl (hbegin u addr ma sh)
    | _ => rfl
  rw [h, hd, Option.map_some]

/-- The calls of every command but `BEGIN` go to its record's address (R21). -/
theorem recordCalls_address {i : Instr} {s : State} {d : DeviceRecord}
    (hbegin : ∀ u a ma sh, i ≠ .begin u a ma sh) :
    ∀ e ∈ recordCalls i s d, e = .delay ∨ e.address = some d.busAddress := by
  intro e he
  cases i with
  | begin u addr ma sh => exact absurd rfl (hbegin u addr ma sh)
  | setMode _ _ | setAvg _ _ | setBusCt _ _ | setShuntCt _ _ => exact .inr (rmwCalls_address e he)
  | reset _ =>
    rcases List.mem_pair.mp he with rfl | rfl
    · exact .inr rfl
    · exact .inl rfl
  | waitConv _ => exact .inr (pollCalls_address e he)
  | setAlertCnvr _ e' => cases e' <;> exact .inr (rmwCalls_address e he)
  | getBusMv _ _ | getShuntUv _ _ => exact .inr (readCalls_address e he)
  | getCurUa _ | getPwrUw _ =>
    obtain rfl := List.mem_singleton.mp he
    exact .inr rfl
  | derive _ _ | scaleBus _ | scaleShunt _ | scaleCur _ _ | scalePwr _ _ | getAddr _ | getCal _
  | getClsb _ | getPlsb _ | getMode _ => cases he

theorem exists_of_mem_recordCalls_begin {u : UnitId} {addr : BusAddr} {ma : Word16} {sh : Word32}
    {s : State} {d : DeviceRecord} {e : BusEvent} (he : e ∈ recordCalls (.begin u addr ma sh) s d) :
    ∃ c, deriveCoefficients ma sh = some c ∧ e ∈ beginCalls addr c s := by
  rw [recordCalls_begin] at he
  cases hc : deriveCoefficients ma sh with
  | none => simp [hc] at he
  | some c => exact ⟨c, rfl, by simpa [hc] using he⟩

/-- Every call but the delay goes to the command's target (R21, R174 a). -/
theorem commandCalls_address {i : Instr} {s : State} :
    ∀ e ∈ commandCalls i s, e = .delay ∨ (e.address = targetOf i s ∧ e.address ≠ none) := by
  intro e he
  obtain ⟨d, hd, he⟩ := exists_record_of_mem_commandCalls he
  by_cases hbegin : ∃ u a ma sh, i = .begin u a ma sh
  · obtain ⟨u, addr, ma, sh, rfl⟩ := hbegin
    obtain ⟨c, hc, he⟩ := exists_of_mem_recordCalls_begin he
    exact (beginCalls_address e he).imp_right fun ha : e.address = some addr => ⟨ha, by simp [ha]⟩
  · push Not at hbegin
    exact (recordCalls_address hbegin e he).imp_right fun ha =>
      ⟨by rw [ha, targetOf_of_record hd hbegin], by simp [ha]⟩

/-- A command is left waiting at its target: the one call it made was to it (R147). -/
theorem exec_waits_at_target {i : Instr} {s t : State} {a : BusAddr} {next : AfterWait}
    (h : exec i s = .next t) (ht : t.activity = .polling a next) : targetOf i s = some a := by
  obtain ⟨t', ht', effect⟩ := exec_effect i s
  obtain rfl := Host.Outcome.next.inj (ht'.symm.trans h)
  cases effect with
  | ends ends _ => simp [ends.activity] at ht
  | @waits a' _ w waits _ =>
    obtain ⟨rfl, rfl⟩ := Activity.polling.inj (waits.activity.symm.trans ht)
    have hcalls : commandCalls i s = [.read a' .maskEn w] :=
      (newEvents_exec h).symm.trans (newEvents_of_trace waits.trace)
    have hmem : BusEvent.read a' .maskEn w ∈ commandCalls i s := by simp [hcalls]
    rcases commandCalls_address _ hmem with hdelay | ⟨haddr, _⟩
    · cases hdelay
    · exact haddr.symm

/-- Settles O48, from the addresses of `pollCalls` and `commandCalls`. -/
theorem callsGoToTheCommandsAddress : Obligations.CallsGoToTheCommandsAddress := by
  refine ⟨fun a next s => ?_, fun i s t a next h ht _ => exec_waits_at_target h ht, fun i s t h => ?_⟩
  · rw [newEvents_pollOnce]
    exact pollCalls_address
  · rw [newEvents_exec h]
    exact commandCalls_address

/-! ### Which registers a command touches -/

/-- A call the table of R32 allows the command. -/
def BusEvent.allowedTo (i : Instr) : BusEvent → Prop
  | .read _ r _ => readBy r i = true
  | .write _ r _ => writtenBy r i = true
  | .probe _ _ | .delay => True

/-- The command a wait belongs to, for the table of R32: a voltage read with the wait flag or without;
`WAIT_CONV` has none, and its unit does not enter. -/
def AfterWait.command (next : AfterWait) (wait : Bool) : Instr :=
  match next with
  | .waitConv => .waitConv 0
  | .getBusMv u => .getBusMv u wait
  | .getShuntUv u => .getShuntUv u wait

theorem rmwCalls_allowed {i : Instr} {a : BusAddr} {r : Reg} {clear set w : Word16}
    (hread : readBy r i = true) (hwrite : writtenBy r i = true) :
    ∀ e ∈ rmwCalls a r clear set w, e.allowedTo i := by
  simp [rmwCalls, BusEvent.allowedTo, hread, hwrite]

theorem dataReadCalls_allowed {i : Instr} {a : BusAddr} {r : Reg} {again : Bool} {s : State}
    (hdata : readBy r i = true) (hread : readBy .config i = true) (hwrite : writtenBy .config i = true) :
    ∀ e ∈ dataReadCalls a r again s, e.allowedTo i := by
  cases again <;> simp [dataReadCalls, rmwCalls, BusEvent.allowedTo, hdata, hread, hwrite]

theorem afterWaitCalls_allowed {a : BusAddr} {next : AfterWait} {s : State} (wait : Bool) :
    ∀ e ∈ afterWaitCalls a next s, e.allowedTo (next.command wait) := by
  cases next with
  | waitConv => simp [afterWaitCalls]
  | getBusMv u | getShuntUv u =>
    cases hd : s.dev[u.toNat]? with
    | none => simp [afterWaitCalls, hd]
    | some d => simpa [afterWaitCalls, hd] using dataReadCalls_allowed rfl rfl rfl

theorem pollCalls_allowed {a : BusAddr} {next : AfterWait} {s : State} :
    ∀ e ∈ pollCalls a next s, e.allowedTo (next.command true) := by
  intro e he
  rcases List.mem_cons.mp he with rfl | he
  · cases next <;> rfl
  · split at he
    · exact afterWaitCalls_allowed true e he
    · cases he

theorem readCalls_allowed {a : BusAddr} {next : AfterWait} {wait : Bool} {s : State} :
    ∀ e ∈ readCalls a next wait s, e.allowedTo (next.command wait) := by
  cases wait with
  | true => exact pollCalls_allowed
  | false => exact afterWaitCalls_allowed false

theorem beginCalls_allowed {u : UnitId} {addr : BusAddr} {ma : Word16} {sh : Word32} {c : Coefficients}
    {s : State} : ∀ e ∈ beginCalls addr c s, e.allowedTo (.begin u addr ma sh) := by
  cases hack : s.probeAnswer with
  | false => simp [beginCalls, hack, BusEvent.allowedTo]
  | true =>
    by_cases hdef : s.answerAt 0 2 = s.params.configDefault <;>
      simp [beginCalls, hack, hdef, BusEvent.allowedTo, readBy, writtenBy]

theorem recordCalls_allowed {i : Instr} {s : State} {d : DeviceRecord} :
    ∀ e ∈ recordCalls i s d, e.allowedTo i := by
  intro e he
  cases i with
  | begin u addr ma sh =>
    obtain ⟨c, _, he⟩ := exists_of_mem_recordCalls_begin he
    exact beginCalls_allowed e he
  | setMode _ _ | setAvg _ _ | setBusCt _ _ | setShuntCt _ _ => exact rmwCalls_allowed rfl rfl e he
  | reset _ =>
    rcases List.mem_pair.mp he with rfl | rfl
    · exact rfl
    · trivial
  | waitConv _ =>
    obtain rfl : e = .read d.busAddress .maskEn s.readAnswer := by
      simpa [recordCalls, pollCalls, afterWaitCalls] using he
    rfl
  | setAlertCnvr _ e' => cases e' <;> exact rmwCalls_allowed rfl rfl e he
  | getBusMv u wait => exact readCalls_allowed (next := .getBusMv u) e he
  | getShuntUv u wait => exact readCalls_allowed (next := .getShuntUv u) e he
  | getCurUa _ | getPwrUw _ =>
    obtain rfl := List.mem_singleton.mp he
    rfl
  | derive _ _ | scaleBus _ | scaleShunt _ | scaleCur _ _ | scalePwr _ _ | getAddr _ | getCal _
  | getClsb _ | getPlsb _ | getMode _ => cases he

theorem commandCalls_allowed {i : Instr} {s : State} : ∀ e ∈ commandCalls i s, e.allowedTo i := by
  intro e he
  obtain ⟨_, _, he⟩ := exists_record_of_mem_commandCalls he
  exact recordCalls_allowed e he

/-- The commands that wait are listed at `CONFIG` alone in the column "written by", and `WAIT_CONV` nowhere
(R32). -/
theorem writtenBy_waiting {r : Reg} {next : AfterWait} (h : writtenBy r (next.command true) = true) :
    r = .config ∧ next ≠ .waitConv := by
  cases next with
  | waitConv => cases r <;> cases h
  | getBusMv u | getShuntUv u =>
    cases r with
    | config => exact ⟨rfl, nofun⟩
    | _ => cases h

/-- Settles O49: every call is one that the table of R32 allows. -/
theorem commandsTouchOnlyTheirRegisters : Obligations.CommandsTouchOnlyTheirRegisters := by
  refine ⟨fun i s t h a r w => ?_, fun a b next s r w => ?_⟩
  · rw [newEvents_exec h]
    exact ⟨commandCalls_allowed _, commandCalls_allowed _⟩
  · rw [newEvents_pollOnce]
    refine ⟨fun he => ?_, fun he => writtenBy_waiting (pollCalls_allowed _ he)⟩
    have hread := pollCalls_allowed _ he
    cases next <;> exact hread

end Sys2Proof.Machine
end

section
/-! What a command leaves the device with, read off its calls: the conversions it starts (R38), and the
configuration and calibration the device is known to hold (R27, R39). -/

namespace Sys2Proof.Machine

/-! ### Conversions started -/

theorem conversionsStarted_exec {i : Instr} {s t : State} {d : DeviceRecord} (hd : recordOf i s = some d)
    (h : exec i s = .next t) (a : BusAddr) :
    conversionsStarted a t.trace = conversionsStarted a s.trace + conversionsStarted a (recordCalls i s d) := by
  rw [exec_trace h, conversionsStarted_append, commandCalls_of_record hd]

theorem conversionsStarted_rmwCalls (a b : BusAddr) (clear set w : Word16) :
    conversionsStarted b (rmwCalls a .config clear set w) = if a = b then 1 else 0 := by
  by_cases h : a = b <;> simp [conversionsStarted, configWrites, rmwCalls, h]

theorem conversionsStarted_dataReadCalls (a : BusAddr) (r : Reg) (again : Bool) (s : State) :
    conversionsStarted a (dataReadCalls a r again s) = if again then 1 else 0 := by
  cases again <;> simp [conversionsStarted, configWrites, dataReadCalls, rmwCalls]

/-- Every setter of a `CONFIG` field, and `RESET`, writes it once, at its record's address (R38, R226). -/
theorem conversionsStarted_setter {u : UnitId} {x : Word16} {i : Instr}
    (hi : i ∈ [Instr.setMode u x, .setAvg u x, .setBusCt u x, .setShuntCt u x, .reset u]) (s : State)
    (d : DeviceRecord) (b : BusAddr) :
    conversionsStarted b (recordCalls i s d) = if d.busAddress = b then 1 else 0 := by
  have reset : conversionsStarted b [.write d.busAddress .config resetWord, .delay] =
      if d.busAddress = b then 1 else 0 := by
    by_cases h : d.busAddress = b <;> simp [conversionsStarted, configWrites, h]
  simp only [List.mem_cons, List.not_mem_nil, or_false] at hi
  rcases hi with rfl | rfl | rfl | rfl | rfl
  · exact conversionsStarted_rmwCalls _ _ _ _ _
  · exact conversionsStarted_rmwCalls _ _ _ _ _
  · exact conversionsStarted_rmwCalls _ _ _ _ _
  · exact conversionsStarted_rmwCalls _ _ _ _ _
  · exact reset

/-- Reads of the current, the power and `MASK_EN` start none. -/
theorem conversionsStarted_reader {u : UnitId} {i : Instr}
    (hi : i ∈ [Instr.getCurUa u, .getPwrUw u, .waitConv u]) (s : State) (d : DeviceRecord) (b : BusAddr) :
    conversionsStarted b (recordCalls i s d) = 0 := by
  simp only [List.mem_cons, List.not_mem_nil, or_false] at hi
  rcases hi with rfl | rfl | rfl <;>
    simp [recordCalls, pollCalls, afterWaitCalls, conversionsStarted, configWrites]

/-- Whether the command a wait belongs to ends with a re-trigger in this mode (R156, R158, R159). -/
def AfterWait.retriggers (next : AfterWait) (m : ModeBits) : Bool :=
  match next with
  | .waitConv => false
  | .getBusMv _ => retriggersBus m
  | .getShuntUv _ => retriggersShunt m

theorem conversionsStarted_afterWaitCalls {next : AfterWait} {s : State} {d : DeviceRecord}
    (hd : recordOf (next.command true) s = some d) (a : BusAddr) :
    conversionsStarted a (afterWaitCalls a next s) =
      if next.retriggers d.operatingMode then 1 else 0 := by
  cases next with
  | waitConv => rfl
  | getBusMv u | getShuntUv u =>
    have hu : s.dev[u.toNat]? = some d := hd
    rw [afterWaitCalls, hu]
    exact conversionsStarted_dataReadCalls _ _ _ _

/-- A poll starts a conversion exactly where its command ends there and comes to a re-trigger. -/
theorem conversionsStarted_pollOnce {next : AfterWait} {s : State} {d : DeviceRecord}
    (hd : recordOf (next.command true) s = some d) (a : BusAddr) :
    conversionsStarted a (pollOnce a next s).trace = conversionsStarted a s.trace +
      if (pollOnce a next s).activity = .idle ∧ next.retriggers d.operatingMode = true then 1 else 0 := by
  simp only [pollOnce_trace, conversionsStarted_append, pollOnce_idle_iff]
  have hread (es : List BusEvent) : conversionsStarted a (.read a .maskEn s.readAnswer :: es) =
      conversionsStarted a es := rfl
  rw [pollCalls, hread]
  cases conversionReady s.params s.readAnswer with
  | false => simp [conversionsStarted, configWrites]
  | true =>
    have hd' : recordOf (next.command true) (regRead a .maskEn s) = some d := hd
    simp [conversionsStarted_afterWaitCalls hd']

/-- With the wait flag the first poll is at the record's address (R156, R158). -/
theorem exec_wait_eq_pollOnce {next : AfterWait} {s t : State} {d : DeviceRecord}
    (hd : recordOf (next.command true) s = some d) (h : exec (next.command true) s = .next t) :
    t = pollOnce d.busAddress next s := by
  cases next with
  | waitConv | getBusMv u | getShuntUv u =>
    obtain rfl := Host.Outcome.next.inj h
    exact withUnit_some hd _

theorem conversionsStarted_wait {next : AfterWait} {s t : State} {d : DeviceRecord}
    (hd : recordOf (next.command true) s = some d) (h : exec (next.command true) s = .next t) :
    conversionsStarted d.busAddress t.trace = conversionsStarted d.busAddress s.trace +
      if t.activity = .idle ∧ next.retriggers d.operatingMode = true then 1 else 0 := by
  rw [exec_wait_eq_pollOnce hd h]
  exact conversionsStarted_pollOnce hd d.busAddress

/-- `BEGIN` writes `CONFIG` once, at its operand, exactly where its probe was acknowledged (R171). -/
theorem conversionsStarted_beginCalls (addr b : BusAddr) (c : Coefficients) (s : State) :
    conversionsStarted b (beginCalls addr c s) =
      if addr = b ∧ BusEvent.probe addr true ∈ beginCalls addr c s then 1 else 0 := by
  cases hack : s.probeAnswer with
  | false => simp [beginCalls, hack, conversionsStarted, configWrites]
  | true =>
    by_cases hdef : s.answerAt 0 2 = s.params.configDefault <;> by_cases hb : addr = b <;>
      simp [beginCalls, hack, hdef, hb, conversionsStarted, configWrites]

theorem conversionsStarted_begin {u : UnitId} {addr : BusAddr} {ma : Word16} {sh : Word32} {s t : State}
    {d : DeviceRecord} (hd : s.dev[u.toNat]? = some d) (h : exec (.begin u addr ma sh) s = .next t)
    (b : BusAddr) :
    conversionsStarted b t.trace = conversionsStarted b s.trace +
      if addr = b ∧ BusEvent.probe addr true ∈ newEvents s t then 1 else 0 := by
  have hrec : recordOf (.begin u addr ma sh) s = some d := (recordOf_eq rfl).trans hd
  rw [conversionsStarted_exec hrec h, newEvents_exec h, commandCalls_of_record hrec, recordCalls_begin]
  cases deriveCoefficients ma sh with
  | none => simp [conversionsStarted, configWrites]
  | some c => rw [Option.elim_some, conversionsStarted_beginCalls]

/-- Settles O60, from the conversions counted in each command's calls. -/
theorem everyConfigurationWriteStartsOneConversion :
    Obligations.EveryConfigurationWriteStartsOneConversion := by
  intro u x s t d hd
  have hrec {i : Instr} (hi : unitOf i = some u) : recordOf i s = some d := (recordOf_eq hi).trans hd
  refine ⟨fun i hi h => ?_, fun h => ?_, fun h => ?_, conversionsStarted_wait (next := .getBusMv u) hd,
    conversionsStarted_wait (next := .getShuntUv u) hd, ?_, ?_, fun addr ma sh h => ?_, fun i hi h => ?_⟩
  · have hi' : unitOf i = some u := by
      simp only [List.mem_cons, List.not_mem_nil, or_false] at hi
      rcases hi with rfl | rfl | rfl | rfl | rfl <;> rfl
    have count := fun b => (conversionsStarted_exec (hrec hi') h b).trans
      (congrArg _ (conversionsStarted_setter hi s d b))
    exact ⟨by simp [count], fun b hb => by simp [count, hb.symm]⟩
  · rw [conversionsStarted_exec (hrec rfl) h]
    exact congrArg _ (conversionsStarted_afterWaitCalls (next := .getBusMv u) hd _)
  · rw [conversionsStarted_exec (hrec rfl) h]
    exact congrArg _ (conversionsStarted_afterWaitCalls (next := .getShuntUv u) hd _)
  · rintro a rfl
    exact conversionsStarted_pollOnce (next := .getBusMv u) hd a
  · rintro a rfl
    exact conversionsStarted_pollOnce (next := .getShuntUv u) hd a
  · have count := conversionsStarted_begin hd h
    exact ⟨by simp [count], fun b hb => by simp [count, hb.symm]⟩
  · have hi' : unitOf i = some u := by
      simp only [List.mem_cons, List.not_mem_nil, or_false] at hi
      rcases hi with rfl | rfl | rfl <;> rfl
    rw [conversionsStarted_exec (hrec hi') h, conversionsStarted_reader hi s d, Nat.add_zero]

/-! ### The device in step with the record -/

theorem lastConfigWritten_rmwCalls (a : BusAddr) (clear set w : Word16) (tr : List BusEvent) :
    lastConfigWritten a (tr ++ rmwCalls a .config clear set w) = some (rmwWord clear set w) := by
  simp [lastConfigWritten, configWrites, rmwCalls]

/-- The mode bits of the word `SET_MODE` writes are those it caches, whatever it read (R131). -/
theorem configMode_rmwWord_modeOperand (m c : Word16) :
    configMode (rmwWord modeMask (modeOperand m) c) = (modeCache m).extractLsb' 0 3 := by
  ext k hk
  have hmask : modeMask.getLsbD k = true := by
    interval_cases k <;> rfl
  have hk16 : k < 16 := by omega
  suffices h : (rmwWord modeMask (modeOperand m) c).getLsbD k = (modeOperand m).getLsbD k by
    simpa [configMode, modeCache] using h
  rw [rmwWord_getLsbD _ _ _ _ hk16, hmask, Bool.not_true, Bool.and_false, Bool.false_or]

/-- After `SET_MODE` the word last written to its record's device carries the cached mode (R27). -/
theorem setMode_lastConfigWritten {u : UnitId} {m : Word16} {s t : State} {d : DeviceRecord}
    (h : exec (.setMode u m) s = .next t) (hd : t.dev[u.toNat]? = some d) :
    (lastConfigWritten d.busAddress t.trace).map configMode = some (d.operatingMode.extractLsb' 0 3) := by
  rw [exec_setMode_dev h, List.getElem?_modify_eq] at hd
  obtain ⟨d₀, hd₀, rfl⟩ := Option.map_eq_some_iff.mp hd
  have hrec : recordOf (.setMode u m) s = some d₀ := (recordOf_eq rfl).trans hd₀
  have htrace : t.trace = s.trace ++ rmwCalls d₀.busAddress .config modeMask (modeOperand m) s.readAnswer := by
    rw [exec_trace h, commandCalls_of_record hrec, recordCalls]
  rw [htrace, lastConfigWritten_rmwCalls, Option.map_some, configMode_rmwWord_modeOperand]

/-- The calls of a `BEGIN` that succeeds (R171). -/
def successCalls (addr : BusAddr) (c : Coefficients) (p : Config.Params) : List BusEvent :=
  [.probe addr true, .write addr .config resetWord, .delay, .read addr .config p.configDefault,
    .write addr .calib c.cal]

/-- Only a `BEGIN` that succeeds writes `CALIB` (R171). -/
theorem beginCalls_of_calib_write {addr a : BusAddr} {c : Coefficients} {s : State} {v : Word16}
    (h : BusEvent.write a .calib v ∈ beginCalls addr c s) :
    s.probeAnswer = true ∧ s.answerAt 0 2 = s.params.configDefault ∧
      beginCalls addr c s = successCalls addr c s.params := by
  cases hack : s.probeAnswer with
  | false => simp [beginCalls, hack] at h
  | true =>
    by_cases hdef : s.answerAt 0 2 = s.params.configDefault
    · exact ⟨rfl, hdef, by simp [beginCalls, hack, hdef, successCalls]⟩
    · simp [beginCalls, hack, hdef] at h

/-- Everything a `BEGIN` that writes `CALIB` has done: its record is populated, its five calls are made. -/
theorem exec_begin_of_calib_write {u : UnitId} {addr a : BusAddr} {ma : Word16} {sh : Word32} {s t : State}
    {v : Word16} (h : exec (.begin u addr ma sh) s = .next t)
    (hw : BusEvent.write a .calib v ∈ newEvents s t) :
    ∃ c, u.toNat < s.nUnits ∧ t.dev = s.dev.set u.toNat (populatedRecord addr c) ∧
      t.trace = s.trace ++ successCalls addr c s.params := by
  rcases exec_begin_cases u addr ma sh s with ⟨_, h'⟩ | ⟨_, _, h'⟩ | ⟨c, hu, _, h'⟩ <;>
    obtain rfl := Host.Outcome.next.inj (h'.symm.trans h)
  · simp [newEvents] at hw
  · simp [newEvents] at hw
  · have htrace := probeAndPopulate_trace u addr c s
    rw [newEvents_of_trace htrace] at hw
    obtain ⟨hack, hdef, hcalls⟩ := beginCalls_of_calib_write hw
    obtain ⟨hdev, _, _⟩ := probeAndPopulate_ack u addr c hack
    exact ⟨c, hu, by rw [hdev, if_pos hdef], by rw [htrace, hcalls]⟩

theorem exec_params {i : Instr} {s t : State} (h : exec i s = .next t) : t.params = s.params := by
  obtain ⟨t', ht', effect⟩ := exec_effect i s
  obtain rfl := Host.Outcome.next.inj (ht'.symm.trans h)
  exact effect.params_eq

/-- The read of the default word makes `CONFIG` known, and the write of `CALIB` leaves it (R27, R39). -/
theorem configHeld_successCalls (addr : BusAddr) (c : Coefficients) (p : Config.Params) (tr : List BusEvent) :
    configHeld p addr (tr ++ successCalls addr c p) = some p.configDefault := by
  simp [configHeld_append, successCalls, configAfter]

theorem calibHeld_successCalls (addr : BusAddr) (c : Coefficients) (p : Config.Params) (tr : List BusEvent) :
    calibHeld addr (tr ++ successCalls addr c p) = some c.cal := by
  simp [calibHeld_append, successCalls, calibAfter]

/-- R11: the mode bits of a legal `CONFIG_DEFAULT` are the constant `BEGIN` caches (R174 c). -/
theorem configMode_configDefault {p : Config.Params} (h : p.valid = true) :
    configMode p.configDefault = 0b111#3 := by
  simp only [Config.Params.valid, Bool.and_eq_true, beq_iff_eq] at h
  exact h.1

/-- Settles O58, from the word `SET_MODE` writes and the five calls of a `BEGIN` that succeeds. -/
theorem modeCacheAgreesAfterSetModeAndBegin : Obligations.ModeCacheAgreesAfterSetModeAndBegin := by
  refine ⟨fun u m s t d h hd => setMode_lastConfigWritten h hd, ?_⟩
  intro u addr ma sh s t d a v hvalid h hw hd
  obtain ⟨c, hu, hdev, htrace⟩ := exec_begin_of_calib_write h hw
  obtain rfl : populatedRecord addr c = d := by
    rw [hdev, List.getElem?_set_self hu] at hd
    exact Option.some.inj hd
  refine ⟨rfl, rfl, ?_, ?_, ?_⟩
  · rw [newEvents_of_trace htrace]
    simp [successCalls]
  · simp only [modeCacheInStep, populatedRecord, exec_params h, htrace, configHeld_successCalls,
      Option.map_some, configMode_configDefault hvalid]
    rfl
  · simp [calibrationInStep, populatedRecord, htrace, calibHeld_successCalls]

end Sys2Proof.Machine
end

section
/-! What the block never reads: two runs in lockstep, from states that may differ in the latched transport
status, the responses and the trace. Each operation keeps two states in lockstep, so every command and every
step does. -/

namespace Sys2Proof.Machine

/-- An idle sequencer answers a word that is no command with `ERR_ILLEGAL` (R190). -/
theorem advance_of_decode_error {s : State} {w : CmdWord} {rest : List CmdWord} {e : FormatError}
    (ha : s.activity = .idle) (hc : s.commands = w :: rest) (hd : decode w = .error e) :
    advance s = .next (raise .errIllegal { s with commands := rest }) := by
  simp only [advance, takeCommand, runWord, ha, hc, hd]

/-- Two runs, one from `s` to `t`, one from `s'` to `t'`, that so far made the same calls and gave the same
responses, and now agree in all else but the latched status; in that too where it agreed at first. -/
structure Lockstep (s s' t t' : State) : Prop where
  params : t.params = t'.params
  dev : t.dev = t'.dev
  busStatus : s.busStatus = s'.busStatus → t.busStatus = t'.busStatus
  activity : t.activity = t'.activity
  commands : t.commands = t'.commands
  responses : ∃ rs, t.responses = s.responses ++ rs ∧ t'.responses = s'.responses ++ rs
  trace : ∃ es, t.trace = s.trace ++ es ∧ t'.trace = s'.trace ++ es
  env : t.env = t'.env
  resetLine : t.resetLine = t'.resetLine

/-- The two results of a command or step, in lockstep. -/
def LockstepResults (s s' : State) (r r' : Result) : Prop :=
  ∃ t t', r = .next t ∧ r' = .next t' ∧ Lockstep s s' t t'

namespace Lockstep

variable {s s' t t' : State}

/-- Two runs in lockstep can be taken as starting where they are. -/
theorem restart (h : Lockstep s s' t t') : Lockstep t t' t t' :=
  { h with
    busStatus := id
    responses := ⟨[], (List.append_nil _).symm, (List.append_nil _).symm⟩
    trace := ⟨[], (List.append_nil _).symm, (List.append_nil _).symm⟩ }

theorem readAnswer_eq (h : Lockstep s s' t t') : t.readAnswer = t'.readAnswer := by
  simp only [State.readAnswer, h.env]

theorem probeAnswer_eq (h : Lockstep s s' t t') : t.probeAnswer = t'.probeAnswer := by
  simp only [State.probeAnswer, h.env]

theorem transportStatus_eq (h : Lockstep s s' t t') : t.transportStatus = t'.transportStatus := by
  simp only [State.transportStatus, h.env]

/-- One more call is one more event on both traces. -/
theorem trace_append (h : Lockstep s s' t t') (fs : List BusEvent) :
    ∃ es, t.trace ++ fs = s.trace ++ es ∧ t'.trace ++ fs = s'.trace ++ es := by
  obtain ⟨es, ht, ht'⟩ := h.trace
  exact ⟨es ++ fs, by rw [ht, List.append_assoc], by rw [ht', List.append_assoc]⟩

theorem regRead (h : Lockstep s s' t t') (a : BusAddr) (r : Reg) :
    Lockstep s s' (regRead a r t) (regRead a r t') :=
  { h with
    busStatus := fun _ => h.transportStatus_eq
    trace := by simpa [h.readAnswer_eq] using h.trace_append [.read a r t'.readAnswer]
    env := by simp [h.env] }

theorem regWrite (h : Lockstep s s' t t') (a : BusAddr) (r : Reg) (v : Word16) :
    Lockstep s s' (regWrite a r v t) (regWrite a r v t') :=
  { h with
    busStatus := fun _ => h.transportStatus_eq
    trace := h.trace_append [.write a r v]
    env := by simp [h.env] }

theorem probe (h : Lockstep s s' t t') (a : BusAddr) : Lockstep s s' (probe a t) (probe a t') :=
  { h with
    busStatus := fun _ => by simp [h.transportStatus_eq, h.probeAnswer_eq]
    trace := by simpa [h.probeAnswer_eq] using h.trace_append [.probe a t'.probeAnswer]
    env := by simp [h.env] }

theorem delay (h : Lockstep s s' t t') : Lockstep s s' (delay t) (delay t') :=
  { h with trace := h.trace_append [.delay] }

theorem respond (h : Lockstep s s' t t') (r : Response) : Lockstep s s' (respond r t) (respond r t') :=
  { h with
    activity := rfl
    responses := by
      obtain ⟨rs, ht, ht'⟩ := h.responses
      exact ⟨rs ++ [r], by simp [ht], by simp [ht']⟩ }

theorem keepPolling (h : Lockstep s s' t t') (a : BusAddr) (next : AfterWait) :
    Lockstep s s' (keepPolling a next t) (keepPolling a next t') :=
  { h with activity := rfl }

theorem setDev (h : Lockstep s s' t t') (u : UnitId) (d : DeviceRecord) :
    Lockstep s s' (setDev u d t) (setDev u d t') :=
  { h with dev := by simp [h.dev] }

theorem withCommands (h : Lockstep s s' t t') (cs : List CmdWord) :
    Lockstep s s' { t with commands := cs } { t' with commands := cs } :=
  { h with commands := rfl }

theorem nextSignal (h : Lockstep s s' t t') : Lockstep s s' (nextSignal t) (nextSignal t') :=
  { h with resetLine := by simp [h.resetLine] }

theorem hardReset (h : Lockstep s s' t t') : Lockstep s s' (hardReset t) (hardReset t') :=
  { h with
    dev := by simp [h.dev]
    busStatus := fun _ => h.transportStatus_eq
    activity := rfl
    env := by simp [h.env] }

theorem rmw (h : Lockstep s s' t t') (a : BusAddr) (r : Reg) (clear set : Word16) :
    Lockstep s s' (rmw a r clear set t) (rmw a r clear set t') := by
  rw [Machine.rmw, Machine.rmw, h.readAnswer_eq]
  exact (h.regRead a r).regWrite a r _

/-- The unit lookup finds the same record, or faults in both (R191). -/
theorem withUnit (h : Lockstep s s' t t') {u : UnitId} {k k' : DeviceRecord → State}
    (hk : ∀ d, Lockstep s s' (k d) (k' d)) : Lockstep s s' (withUnit u t k) (withUnit u t' k') := by
  rcases withUnit_cases u t k with ⟨d, hd, hw⟩ | ⟨_, hd, hw⟩ <;> rw [hw]
  · rw [withUnit_some (h.dev ▸ hd)]
    exact hk d
  · rw [withUnit_none (h.dev ▸ hd)]
    exact h.respond _

/-- The end of a voltage read: the same word read, scaled the same, and the same re-trigger. -/
theorem dataRead (h : Lockstep s s' t t') (a : BusAddr) (r : Reg) (again : Bool) (v : Word16 → Word32) :
    Lockstep s s'
      (done0 (v t.readAnswer) (if again then retrigger a (Machine.regRead a r t) else Machine.regRead a r t))
      (done0 (v t'.readAnswer)
        (if again then retrigger a (Machine.regRead a r t') else Machine.regRead a r t')) := by
  rw [h.readAnswer_eq]
  cases again with
  | false => exact (h.regRead a r).respond _
  | true => exact ((h.regRead a r).rmw a .config 0 0).respond _

theorem afterWait (h : Lockstep s s' t t') (a : BusAddr) (next : AfterWait) :
    Lockstep s s' (afterWait a next t) (afterWait a next t') := by
  cases next with
  | waitConv => exact h.respond _
  | getBusMv u =>
    exact h.withUnit fun d => h.dataRead a .busV (retriggersBus d.operatingMode) fun w => asU32 (scaleBus w)
  | getShuntUv u =>
    exact h.withUnit fun d =>
      h.dataRead a .shuntV (retriggersShunt d.operatingMode) fun w => asS32 (scaleShunt w)

theorem pollOnce (h : Lockstep s s' t t') (a : BusAddr) (next : AfterWait) :
    Lockstep s s' (pollOnce a next t) (pollOnce a next t') := by
  have polled := h.regRead a .maskEn
  simp only [Machine.pollOnce, h.params, h.readAnswer_eq]
  split
  · exact polled.afterWait a next
  · exact polled.keepPolling a next

theorem read (h : Lockstep s s' t t') (a : BusAddr) (next : AfterWait) (wait : Bool) :
    Lockstep s s' (if wait then Machine.pollOnce a next t else Machine.afterWait a next t)
      (if wait then Machine.pollOnce a next t' else Machine.afterWait a next t') := by
  cases wait with
  | true => exact h.pollOnce a next
  | false => exact h.afterWait a next

theorem verifyAndPopulate (h : Lockstep s s' t t') (u : UnitId) (addr : BusAddr) (c : Coefficients) :
    Lockstep s s' (verifyAndPopulate u addr c t) (verifyAndPopulate u addr c t') := by
  have checked := h.regRead addr .config
  simp only [Machine.verifyAndPopulate, h.params, h.readAnswer_eq]
  split
  · exact ((checked.setDev u _).regWrite addr .calib c.cal).respond _
  · exact checked.respond _

theorem probeAndPopulate (h : Lockstep s s' t t') (u : UnitId) (addr : BusAddr) (c : Coefficients) :
    Lockstep s s' (probeAndPopulate u addr c t) (probeAndPopulate u addr c t') := by
  have probed := h.probe addr
  simp only [Machine.probeAndPopulate, h.probeAnswer_eq]
  split
  · exact ((probed.regWrite addr .config resetWord).delay).verifyAndPopulate u addr c
  · exact probed.respond _

theorem begin (h : Lockstep s s' t t') (u : UnitId) (addr : BusAddr) (ma : Word16) (sh : Word32) :
    LockstepResults s s' (exec (.begin u addr ma sh) t) (exec (.begin u addr ma sh) t') := by
  refine ⟨_, _, rfl, rfl, h.withUnit fun _ => ?_⟩
  cases deriveCoefficients ma sh with
  | none => exact h.respond _
  | some c => exact h.probeAndPopulate u addr c

theorem derive (h : Lockstep s s' t t') (ma : Word16) (sh : Word32) :
    LockstepResults s s' (exec (.derive ma sh) t) (exec (.derive ma sh) t') := by
  refine ⟨_, _, rfl, rfl, ?_⟩
  cases deriveCoefficients ma sh with
  | none => exact h.respond _
  | some c => exact h.respond _

/-- Every command keeps two states in lockstep. -/
theorem exec (h : Lockstep s s' t t') (i : Instr) : LockstepResults s s' (exec i t) (exec i t') := by
  cases i with
  | begin u addr ma sh => exact h.begin u addr ma sh
  | derive ma sh => exact h.derive ma sh
  | scaleBus _ | scaleShunt _ => exact ⟨_, _, rfl, rfl, h.respond _⟩
  | setMode _ m => exact ⟨_, _, rfl, rfl, h.withUnit fun d => ((h.rmw _ _ _ _).setDev _ _).respond _⟩
  | setAvg _ _ | setBusCt _ _ | setShuntCt _ _ =>
    exact ⟨_, _, rfl, rfl, h.withUnit fun _ => (h.rmw _ _ _ _).respond _⟩
  | reset _ => exact ⟨_, _, rfl, rfl, h.withUnit fun _ => ((h.regWrite _ _ _).delay).respond _⟩
  | waitConv _ => exact ⟨_, _, rfl, rfl, h.withUnit fun _ => h.pollOnce _ _⟩
  | setAlertCnvr _ e =>
    refine ⟨_, _, rfl, rfl, h.withUnit fun d => ?_⟩
    rw [h.params]
    cases e <;> exact (h.rmw _ _ _ _).respond _
  | getBusMv u wait =>
    exact ⟨_, _, rfl, rfl, h.withUnit fun d => h.read d.busAddress (.getBusMv u) wait⟩
  | getShuntUv u wait =>
    exact ⟨_, _, rfl, rfl, h.withUnit fun d => h.read d.busAddress (.getShuntUv u) wait⟩
  | getCurUa _ | getPwrUw _ =>
    refine ⟨_, _, rfl, rfl, h.withUnit fun _ => ?_⟩
    rw [h.readAnswer_eq]
    exact (h.regRead _ _).respond _
  | scaleCur _ _ | scalePwr _ _ | getAddr _ | getCal _ | getClsb _ | getPlsb _ | getMode _ =>
    exact ⟨_, _, rfl, rfl, h.withUnit fun _ => h.respond _⟩

theorem advance (h : Lockstep s s' t t') : LockstepResults s s' (advance t) (advance t') := by
  rcases advance_cases t with
    ⟨a, next, ha, ht⟩ | ⟨ha, hc, ht⟩ | ⟨w, rest, i, ha, hc, hi, ht⟩ | ⟨w, rest, e, ha, hc, he, ht⟩ <;>
    rw [ht]
  · exact ⟨_, _, rfl, by simp [Machine.advance, ← h.activity, ha], h.pollOnce a next⟩
  · exact ⟨_, _, rfl, by simp [Machine.advance, takeCommand, ← h.activity, ← h.commands, ha, hc], h⟩
  · rw [advance_of_decode (h.activity ▸ ha) (h.commands ▸ hc) hi]
    exact (h.withCommands rest).exec i
  · rw [advance_of_decode_error (h.activity ▸ ha) (h.commands ▸ hc) he]
    exact ⟨_, _, rfl, rfl, (h.withCommands rest).respond _⟩

/-- A reset inside a step cuts the same calls off both runs (R211). -/
theorem abandonAfter {v v' : State} (h : Lockstep s s' t t') (hv : Lockstep t t' v v') (n : Nat) :
    Lockstep s s' (abandonAfter n t v) (abandonAfter n t' v') := by
  obtain ⟨es, hes, hes'⟩ := hv.trace
  have made : v.trace.drop t.trace.length = es := by simp [hes]
  have made' : v'.trace.drop t'.trace.length = es := by simp [hes']
  simp only [Machine.abandonAfter, made, made']
  exact hardReset
    { h with
      commands := hv.commands
      trace := h.trace_append (es.take n)
      env := by simp only [h.env, hv.env] }

/-- Every step keeps two states in lockstep. -/
theorem step (h : Lockstep s s' t t') : LockstepResults s s' (step t) (step t') := by
  have hsignal : t.resetSignal = t'.resetSignal := by simp only [State.resetSignal, h.resetLine]
  obtain ⟨v, v', hv, hv', hvv'⟩ := h.nextSignal.restart.advance
  simp only [Machine.step, hsignal]
  cases t'.resetSignal with
  | low => exact h.nextSignal.advance
  | before => exact ⟨_, _, rfl, rfl, h.nextSignal.hardReset⟩
  | inside n =>
    exact ⟨_, _, by rw [hv]; rfl, by rw [hv']; rfl, h.nextSignal.abandonAfter hvv' n⟩

/-- Runs in lockstep are in equal states but for the latched status and what was observed. -/
theorem agree (h : Lockstep s s' t t') :
    { t with busStatus := t'.busStatus, responses := t'.responses, trace := t'.trace } = t' := by
  simp only [h.params, h.dev, h.activity, h.commands, h.env, h.resetLine]

theorem newEvents_eq (h : Lockstep s s' t t') : newEvents s t = newEvents s' t' := by
  obtain ⟨es, ht, ht'⟩ := h.trace
  rw [newEvents_of_trace ht, newEvents_of_trace ht']

theorem newResponses_eq (h : Lockstep s s' t t') : newResponses s t = newResponses s' t' := by
  obtain ⟨rs, ht, ht'⟩ := h.responses
  simp [newResponses, ht, ht']

/-- Two states that agree but for the latched status and what was observed start in lockstep. -/
theorem of_agree
    (h : { s with busStatus := s'.busStatus, responses := s'.responses, trace := s'.trace } = s') :
    Lockstep s s' s s' where
  params := (congrArg State.params h :)
  dev := (congrArg State.dev h :)
  busStatus := id
  activity := (congrArg State.activity h :)
  commands := (congrArg State.commands h :)
  responses := ⟨[], (List.append_nil _).symm, (List.append_nil _).symm⟩
  trace := ⟨[], (List.append_nil _).symm, (List.append_nil _).symm⟩
  env := (congrArg State.env h :)
  resetLine := (congrArg State.resetLine h :)

/-- Runs in lockstep from states that differ in the latched status differ in nothing else. -/
theorem sameButBusStatus_of_start {b : BusStatus} (h : Lockstep s { s with busStatus := b } t t') :
    sameButBusStatus t t' := by
  obtain ⟨rs, hr, hr'⟩ := h.responses
  obtain ⟨es, he, he'⟩ := h.trace
  rw [sameButBusStatus, hr.trans hr'.symm, he.trans he'.symm]
  exact h.agree

theorem sameButObservations_of_busStatus (hs : s.busStatus = s'.busStatus) (h : Lockstep s s' t t') :
    sameButObservations t t' := by
  rw [sameButObservations, h.busStatus hs]
  exact h.agree

end Lockstep

/-- Settles O52: two states that differ in the latched status run in lockstep. -/
theorem busStatusIsNeverRead : Obligations.BusStatusIsNeverRead := by
  intro s b
  have start : Lockstep s { s with busStatus := b } s { s with busStatus := b } := .of_agree rfl
  have conclude {r r' : Result} (h : LockstepResults s { s with busStatus := b } r r') :
      ∃ t t', r = .next t ∧ r' = .next t' ∧ sameButBusStatus t t' := by
    obtain ⟨t, t', hr, hr', lock⟩ := h
    exact ⟨t, t', hr, hr', lock.sameButBusStatus_of_start⟩
  exact ⟨fun i => conclude (start.exec i), conclude start.step⟩

/-- Settles O53: two states that differ in what was observed run in lockstep. -/
theorem earlierResponsesAndCallsAreNeverRead : Obligations.EarlierResponsesAndCallsAreNeverRead := by
  intro s s' hs
  have hstatus : s.busStatus = s'.busStatus := (congrArg State.busStatus hs :)
  have start : Lockstep s s' s s' := .of_agree (hstatus ▸ hs)
  have conclude {r r' : Result} (h : LockstepResults s s' r r') :
      ∃ t t', r = .next t ∧ r' = .next t' ∧ sameButObservations t t' ∧
        newEvents s t = newEvents s' t' ∧ newResponses s t = newResponses s' t' := by
    obtain ⟨t, t', hr, hr', lock⟩ := h
    exact ⟨t, t', hr, hr', lock.sameButObservations_of_busStatus hstatus,
      lock.newEvents_eq, lock.newResponses_eq⟩
  exact ⟨fun i => conclude (start.exec i), conclude start.step⟩

end Sys2Proof.Machine
end

section
/-! How a register access crosses the bus: the two bytes of a word, and the transport operations of one call and
of a whole trace. -/

namespace Sys2Proof.Machine

/-! ### The two bytes of a word (R52, R55) -/

theorem toNat_firstByte (w : Word16) : (firstByte w).toNat = w.toNat / 256 := by
  have hhigh : w.toNat / 256 < 256 := by omega
  rw [firstByte, BitVec.extractLsb'_toNat, Nat.shiftRight_eq_div_pow, Nat.mod_eq_of_lt hhigh]

theorem toNat_secondByte (w : Word16) : (secondByte w).toNat = w.toNat % 256 := by
  rw [secondByte, BitVec.extractLsb'_toNat, Nat.shiftRight_zero]

theorem toNat_wordOfBytes (b1 b2 : Byte) : (wordOfBytes b1 b2).toNat = b1.toNat * 256 + b2.toNat := by
  rw [wordOfBytes, BitVec.toNat_append, ← Nat.shiftLeft_add_eq_or_of_lt b2.isLt, Nat.shiftLeft_eq]

@[simp] theorem wordOfBytes_firstByte_secondByte (w : Word16) :
    wordOfBytes (firstByte w) (secondByte w) = w := by
  apply BitVec.eq_of_toNat_eq
  rw [toNat_wordOfBytes, toNat_firstByte, toNat_secondByte, Nat.div_add_mod']

/-! ### Transport operations -/

theorem Reg.number_le (r : Reg) : r.number.toNat ≤ 6 := by
  cases r <;> decide

/-- Every call reads a word or nothing: none uses `read-byte` (R50). -/
theorem readByte_notMem_transport (b : Byte) (e : BusEvent) : TransportOp.readByte b ∉ e.transport := by
  cases e <;> simp [BusEvent.transport]

theorem readByte_notMem_transportOf (tr : List BusEvent) (b : Byte) :
    TransportOp.readByte b ∉ transportOf tr := by
  intro hmem
  obtain ⟨e, -, he⟩ := List.mem_flatMap.mp hmem
  exact readByte_notMem_transport b e he

/-- Settles O51: a word is its two bytes joined, and each call's operations are those of `BusEvent.transport`. -/
theorem wordsCrossTheBusMostSignificantByteFirst :
    Obligations.WordsCrossTheBusMostSignificantByteFirst := by
  refine ⟨fun w => ?bytes, rfl, Reg.number_le, fun a r v => ?access, fun _ _ => rfl,
    readByte_notMem_transportOf⟩
  case bytes => exact ⟨wordOfBytes_firstByte_secondByte w, toNat_firstByte w, toNat_secondByte w⟩
  case access => exact ⟨rfl, firstByte v, secondByte v, rfl, wordOfBytes_firstByte_secondByte v⟩

end Sys2Proof.Machine
end

section
/-! The opcode table of R78 and the formats of R76 agree: a row matches a word exactly when the word has the
row's opcode and its fields obey that opcode's format. Decoding and encoding are inverse because of it. -/

namespace Sys2Proof

/-! ### A row's opcode, and the format it has (R76) -/

/-- The opcode a row stands for. -/
def OpcodeRow.op (r : OpcodeRow) : BitVec 5 := (fieldsOfWord r.pattern).op

/-- The fields with the given opcode and nothing else. -/
def Fields.ofOp (op : BitVec 5) : Fields := ⟨op, 0, 0, 0, 0, 0, 0⟩

/-- The part of a format's mask that lies over a field: every bit of a field that must be 0. -/
def Format.maskOver (fmt : Format) (n : FieldName) (k : Nat) : BitVec k :=
  if n ∈ fmt.unused then BitVec.allOnes k else 0

/-- The mask a format asks for: the opcode, and the fields that must be 0. -/
def Format.mask (fmt : Format) : Fields :=
  ⟨BitVec.allOnes 5, fmt.maskOver .f 1, fmt.maskOver .unit 2, fmt.maskOver .addr 7, fmt.maskOver .z 1,
    fmt.maskOver .imm16 16, fmt.maskOver .imm32 32⟩

/-- A field's content where the format uses the field, else 0. -/
def Format.keep (fmt : Format) (n : FieldName) {k : Nat} (v : BitVec k) : BitVec k :=
  if n ∈ fmt.unused then 0 else v

/-- The given opcode with those contents of `x` that the format uses. -/
def Format.usedOf (fmt : Format) (op : BitVec 5) (x : Fields) : Fields :=
  ⟨op, fmt.keep .f x.f, fmt.keep .unit x.unit, fmt.keep .addr x.addr, fmt.keep .z x.z,
    fmt.keep .imm16 x.imm16, fmt.keep .imm32 x.imm32⟩

/-- The rows stand in the order of their opcodes, 0x01 to 0x16. -/
theorem opcodeTable_ops :
    opcodeTable.map OpcodeRow.op = (List.range 22).map fun k => BitVec.ofNat 5 (k + 1) := by
  decide

/-- An opcode with a format is that of the row in its place. -/
theorem opcode_at_of_isSome :
    ∀ op : BitVec 5, (formatOf op).isSome →
      ((List.range 22).map fun k => BitVec.ofNat 5 (k + 1))[op.toNat - 1]? = some op := by
  decide

/-- R82 (a). -/
theorem formatOf_eq_none_iff : ∀ op : BitVec 5, formatOf op = none ↔ op = 0x00#5 ∨ 0x17#5 ≤ op := by
  decide

theorem op_of_getElem? {op : BitVec 5} {r : OpcodeRow} (hop : (formatOf op).isSome)
    (hr : opcodeTable[op.toNat - 1]? = some r) : r.op = op := by
  have hat := opcode_at_of_isSome op hop
  rw [← opcodeTable_ops, List.getElem?_map, hr] at hat
  exact Option.some.inj hat

theorem exists_row_of_isSome {op : BitVec 5} (hop : (formatOf op).isSome) :
    ∃ r ∈ opcodeTable, r.op = op := by
  have hat := List.mem_of_getElem? (opcode_at_of_isSome op hop)
  rw [← opcodeTable_ops] at hat
  exact List.mem_map.mp hat

theorem opcodeTable_ops_nodup : (opcodeTable.map OpcodeRow.op).Nodup := by
  rw [opcodeTable_ops]
  decide

theorem opcodeTable_mnemonics_nodup : (opcodeTable.map OpcodeRow.mnemonic).Nodup := by
  decide

/-! ### The columns of the table, row by row -/

theorem OpcodeRow.pattern_eq {r : OpcodeRow} (hr : r ∈ opcodeTable) :
    r.pattern = (Fields.ofOp r.op).toWord := by
  have column : opcodeTable.map OpcodeRow.pattern = opcodeTable.map fun r => (Fields.ofOp r.op).toWord := by
    decide
  exact List.map_inj_left.mp column r hr

/-- The mask column of R78 is that of the formats of R76. -/
theorem OpcodeRow.exists_format {r : OpcodeRow} (hr : r ∈ opcodeTable) :
    ∃ fmt, formatOf r.op = some fmt ∧ r.mask = fmt.mask.toWord := by
  have column : (opcodeTable.map fun r => (formatOf r.op).map fun fmt => fmt.mask.toWord) =
      opcodeTable.map fun r => some r.mask := by
    decide
  obtain ⟨fmt, hfmt, hmask⟩ := Option.map_eq_some_iff.mp (List.map_inj_left.mp column r hr)
  exact ⟨fmt, hfmt, hmask.symm⟩

theorem OpcodeRow.mnemonic_build {r : OpcodeRow} (hr : r ∈ opcodeTable) (x : Fields) :
    (r.build x).mnemonic = r.mnemonic := by
  have column : (opcodeTable.map fun r => (r.build x).mnemonic) = opcodeTable.map OpcodeRow.mnemonic := rfl
  exact List.map_inj_left.mp column r hr

/-- A row's command carries just the fields its format uses (R77); the flag goes through a `Bool` and back. -/
theorem OpcodeRow.fields_build {r : OpcodeRow} (hr : r ∈ opcodeTable) {fmt : Format}
    (hfmt : formatOf r.op = some fmt) (x : Fields) : (r.build x).fields = fmt.usedOf r.op x := by
  have column : (opcodeTable.map fun r => some (r.build x).fields) =
      opcodeTable.map fun r => (formatOf r.op).map fun fmt => fmt.usedOf r.op x := by
    obtain ⟨op, f, unit, addr, z, imm16, imm32⟩ := x
    obtain rfl | rfl := BitVec.eq_zero_or_eq_one f <;> rfl
  have hrow := List.map_inj_left.mp column r hr
  rw [hfmt] at hrow
  exact Option.some.inj hrow

/-! ### Which fields obey a format (R76) -/

/-- Every field the format does not use is 0. -/
def Fields.Obeys (x : Fields) (fmt : Format) : Prop := ∀ n ∈ fmt.unused, x.isZero n = true

theorem Fields.obeys_iff (x : Fields) (fmt : Format) :
    x.Obeys fmt ↔
      (.f ∈ fmt.unused → x.f = 0) ∧ (.unit ∈ fmt.unused → x.unit = 0) ∧
        (.addr ∈ fmt.unused → x.addr = 0) ∧ (.z ∈ fmt.unused → x.z = 0) ∧
        (.imm16 ∈ fmt.unused → x.imm16 = 0) ∧ (.imm32 ∈ fmt.unused → x.imm32 = 0) := by
  constructor
  · intro h
    refine ⟨fun hn => ?_, fun hn => ?_, fun hn => ?_, fun hn => ?_, fun hn => ?_, fun hn => ?_⟩ <;>
      exact eq_of_beq (h _ hn)
  · rintro ⟨hf, hunit, haddr, hz, himm16, himm32⟩ n hn
    cases n with
    | f => exact beq_iff_eq.mpr (hf hn)
    | unit => exact beq_iff_eq.mpr (hunit hn)
    | addr => exact beq_iff_eq.mpr (haddr hn)
    | z => exact beq_iff_eq.mpr (hz hn)
    | imm16 => exact beq_iff_eq.mpr (himm16 hn)
    | imm32 => exact beq_iff_eq.mpr (himm32 hn)

theorem Fields.wellFormed_iff (x : Fields) :
    x.wellFormed = true ↔ ∃ fmt, formatOf x.op = some fmt ∧ x.Obeys fmt := by
  cases h : formatOf x.op <;> simp [Fields.wellFormed, Fields.violation, Fields.Obeys, h]

theorem Format.and_maskOver_eq_zero_iff (fmt : Format) (n : FieldName) {k : Nat} (v : BitVec k) :
    v &&& fmt.maskOver n k = 0 ↔ (n ∈ fmt.unused → v = 0) := by
  by_cases hn : n ∈ fmt.unused <;> simp [Format.maskOver, hn]

theorem Format.keep_eq_self {fmt : Format} {n : FieldName} {k : Nat} {v : BitVec k}
    (h : n ∈ fmt.unused → v = 0) : fmt.keep n v = v :=
  ite_eq_right_iff.mpr fun hn => (h hn).symm

/-- A mask test against a format's mask, as R76 and R82 say it. -/
theorem Fields.land_mask_eq_ofOp_iff (x : Fields) (fmt : Format) (op : BitVec 5) :
    x.land fmt.mask = .ofOp op ↔ x.op = op ∧ x.Obeys fmt := by
  simp only [Fields.land, Format.mask, Fields.ofOp, Fields.mk.injEq, Fields.obeys_iff,
    Format.and_maskOver_eq_zero_iff, BitVec.and_allOnes]

/-- Fields that obey the format are all used. -/
theorem Fields.Obeys.usedOf_eq {x : Fields} {fmt : Format} (h : x.Obeys fmt) :
    fmt.usedOf x.op x = x := by
  obtain ⟨hf, hunit, haddr, hz, himm16, himm32⟩ := (x.obeys_iff fmt).mp h
  simp only [Format.usedOf, Format.keep_eq_self hf, Format.keep_eq_self hunit,
    Format.keep_eq_self haddr, Format.keep_eq_self hz, Format.keep_eq_self himm16,
    Format.keep_eq_self himm32]

/-! ### When a row matches -/

/-- A row matches the words that have its opcode and obey its format. -/
theorem OpcodeRow.isRowOf_iff {r : OpcodeRow} (hr : r ∈ opcodeTable) (w : CmdWord) :
    r.isRowOf w = true ↔ (fieldsOfWord w).op = r.op ∧ (fieldsOfWord w).wellFormed = true := by
  obtain ⟨fmt, hfmt, hmask⟩ := r.exists_format hr
  have hmatch : r.isRowOf w = true ↔ (fieldsOfWord w).op = r.op ∧ (fieldsOfWord w).Obeys fmt := by
    rw [OpcodeRow.isRowOf, beq_iff_eq, hmask, r.pattern_eq hr, and_mask_eq_iff,
      Fields.land_mask_eq_ofOp_iff]
  rw [hmatch, Fields.wellFormed_iff]
  refine and_congr_right fun hop => ?_
  simp [hop, hfmt]

/-- No word matches two rows (R79). -/
theorem OpcodeRow.eq_of_isRowOf {r r' : OpcodeRow} (hr : r ∈ opcodeTable) (hr' : r' ∈ opcodeTable)
    {w : CmdWord} (hw : r.isRowOf w = true) (hw' : r'.isRowOf w = true) : r = r' := by
  obtain ⟨hop, -⟩ := (r.isRowOf_iff hr w).mp hw
  obtain ⟨hop', -⟩ := (r'.isRowOf_iff hr' w).mp hw'
  exact List.inj_on_of_nodup_map opcodeTable_ops_nodup hr hr' (hop.symm.trans hop')

/-- The words of some row are those whose fields form a command. -/
theorem exists_isRowOf_iff (w : CmdWord) :
    (∃ r ∈ opcodeTable, r.isRowOf w = true) ↔ (fieldsOfWord w).wellFormed = true := by
  constructor
  · rintro ⟨r, hr, hw⟩
    exact ((r.isRowOf_iff hr w).mp hw).2
  · intro hwf
    obtain ⟨fmt, hfmt, -⟩ := (Fields.wellFormed_iff _).mp hwf
    obtain ⟨r, hr, hop⟩ := exists_row_of_isSome (Option.isSome_of_mem hfmt)
    exact ⟨r, hr, (r.isRowOf_iff hr w).mpr ⟨hop.symm, hwf⟩⟩

/-- A row's command has the word it was built from. -/
theorem OpcodeRow.encode_build {r : OpcodeRow} (hr : r ∈ opcodeTable) {w : CmdWord}
    (hw : r.isRowOf w = true) : encode (r.build (fieldsOfWord w)) = w := by
  obtain ⟨hop, hwf⟩ := (r.isRowOf_iff hr w).mp hw
  obtain ⟨fmt, hfmt, hobeys⟩ := (Fields.wellFormed_iff _).mp hwf
  have hfields : (r.build (fieldsOfWord w)).fields = fieldsOfWord w := by
    rw [r.fields_build hr (hop ▸ hfmt), ← hop, hobeys.usedOf_eq]
  rw [encode, hfields, toWord_fieldsOfWord]

/-! ### The decoder -/

/-- The row the decoder looks up is in the table and matches. -/
theorem isRowOf_of_find? {w : CmdWord} {r : OpcodeRow}
    (hfind : opcodeTable.find? (fun r => r.isRowOf w) = some r) :
    r ∈ opcodeTable ∧ r.isRowOf w = true :=
  ⟨List.mem_of_find?_eq_some hfind, (List.find?_some hfind :)⟩

theorem decode_eq_ok_of_isRowOf {r : OpcodeRow} (hr : r ∈ opcodeTable) {w : CmdWord}
    (hw : r.isRowOf w = true) : decode w = .ok (r.build (fieldsOfWord w)) := by
  cases hfind : opcodeTable.find? (fun r => r.isRowOf w) with
  | none => exact absurd hw (List.find?_eq_none.mp hfind r hr)
  | some r' =>
    obtain ⟨hr', hw'⟩ := isRowOf_of_find? hfind
    obtain rfl : r' = r := OpcodeRow.eq_of_isRowOf hr' hr hw' hw
    simp only [decode, hfind]

/-- What the decoder accepts, and the command it reads. -/
theorem decode_eq_ok_iff (w : CmdWord) (i : Instr) :
    decode w = .ok i ↔
      ∃ r ∈ opcodeTable, r.isRowOf w = true ∧ r.build (fieldsOfWord w) = i := by
  constructor
  · intro hd
    cases hfind : opcodeTable.find? (fun r => r.isRowOf w) with
    | none => simp [decode, hfind] at hd
    | some r =>
      simp only [decode, hfind, Except.ok.injEq] at hd
      obtain ⟨hr, hw⟩ := isRowOf_of_find? hfind
      exact ⟨r, hr, hw, hd⟩
  · rintro ⟨r, hr, hw, rfl⟩
    exact decode_eq_ok_of_isRowOf hr hw

/-- What the decoder rejects. -/
theorem exists_decode_error_iff (w : CmdWord) :
    (∃ e, decode w = .error e) ↔ ∀ r ∈ opcodeTable, r.isRowOf w = false := by
  constructor
  · rintro ⟨e, hd⟩ r hr
    by_contra hw
    rw [decode_eq_ok_of_isRowOf hr (Bool.of_not_eq_false hw)] at hd
    cases hd
  · intro hnone
    cases hd : decode w with
    | error e => exact ⟨e, rfl⟩
    | ok i =>
      obtain ⟨r, hr, hw, -⟩ := (decode_eq_ok_iff w i).mp hd
      exact absurd hw (Bool.eq_false_iff.mp (hnone r hr))

/-! ### Every command's row and fields, from the families of Laws/PerInstr.lean -/

open Laws in
theorem Instr.wellFormed_eq_true (i : Instr) : i.wellFormed = true := by
  cases i
  exacts [FieldsWellFormed.begin .., FieldsWellFormed.derive .., FieldsWellFormed.scaleBus ..,
    FieldsWellFormed.scaleShunt .., FieldsWellFormed.scaleCur .., FieldsWellFormed.scalePwr ..,
    FieldsWellFormed.setMode .., FieldsWellFormed.setAvg .., FieldsWellFormed.setBusCt ..,
    FieldsWellFormed.setShuntCt .., FieldsWellFormed.reset .., FieldsWellFormed.waitConv ..,
    FieldsWellFormed.setAlertCnvr .., FieldsWellFormed.getBusMv .., FieldsWellFormed.getShuntUv ..,
    FieldsWellFormed.getCurUa .., FieldsWellFormed.getPwrUw .., FieldsWellFormed.getAddr ..,
    FieldsWellFormed.getCal .., FieldsWellFormed.getClsb .., FieldsWellFormed.getPlsb ..,
    FieldsWellFormed.getMode ..]

open Laws in
theorem Instr.hasOpcodeRow (i : Instr) : HasOpcodeRow.Statement i := by
  cases i
  exacts [HasOpcodeRow.begin .., HasOpcodeRow.derive .., HasOpcodeRow.scaleBus ..,
    HasOpcodeRow.scaleShunt .., HasOpcodeRow.scaleCur .., HasOpcodeRow.scalePwr ..,
    HasOpcodeRow.setMode .., HasOpcodeRow.setAvg .., HasOpcodeRow.setBusCt ..,
    HasOpcodeRow.setShuntCt .., HasOpcodeRow.reset .., HasOpcodeRow.waitConv ..,
    HasOpcodeRow.setAlertCnvr .., HasOpcodeRow.getBusMv .., HasOpcodeRow.getShuntUv ..,
    HasOpcodeRow.getCurUa .., HasOpcodeRow.getPwrUw .., HasOpcodeRow.getAddr ..,
    HasOpcodeRow.getCal .., HasOpcodeRow.getClsb .., HasOpcodeRow.getPlsb ..,
    HasOpcodeRow.getMode ..]

/-! ### The obligations on decoding and encoding -/

/-- Settles O1: the command's own row matches its word, and builds the command back from its fields. -/
theorem encodeThenDecodeGivesTheCommand : Obligations.EncodeThenDecodeGivesTheCommand := by
  intro i
  have hfields : fieldsOfWord (encode i) = i.fields := fieldsOfWord_toWord _
  have hwf : i.fields.wellFormed = true := i.wellFormed_eq_true
  obtain ⟨fmt, hfmt, -⟩ := (Fields.wellFormed_iff _).mp hwf
  obtain ⟨r, hat, -, hbuild⟩ := i.hasOpcodeRow
  have hr : r ∈ opcodeTable := List.mem_of_getElem? hat
  have hop : r.op = i.fields.op := op_of_getElem? (Option.isSome_of_mem hfmt) hat
  have hrow : r.isRowOf (encode i) = true := by
    rw [r.isRowOf_iff hr, hfields]
    exact ⟨hop.symm, hwf⟩
  rw [decode_eq_ok_of_isRowOf hr hrow, hfields, hbuild]

/-- Settles O2: the row that matched builds a command that uses every field of the word. -/
theorem decodeThenEncodeGivesTheWord : Obligations.DecodeThenEncodeGivesTheWord := by
  intro w i hd
  obtain ⟨r, hr, hw, rfl⟩ := (decode_eq_ok_iff w i).mp hd
  exact r.encode_build hr hw

/-- Settles O3: the rows written out are those of `opcodeTable`, a row's command has the row's mnemonic, and
a mnemonic names one row. -/
theorem wordIsTheCommandOfARowExactlyWhenItMatches :
    Obligations.WordIsTheCommandOfARowExactlyWhenItMatches := by
  intro row hrow w
  obtain ⟨r, hr, rfl⟩ :=
    List.mem_map.mp (show row ∈ opcodeTable.map fun r => (r.mnemonic, r.pattern, r.mask) from hrow)
  rw [← beq_iff_eq]
  change r.isRowOf w = true ↔ ∃ i, decode w = .ok i ∧ i.mnemonic = r.mnemonic
  constructor
  · intro hw
    exact ⟨_, decode_eq_ok_of_isRowOf hr hw, r.mnemonic_build hr _⟩
  · rintro ⟨i, hd, hname⟩
    obtain ⟨r', hr', hw', rfl⟩ := (decode_eq_ok_iff w i).mp hd
    have hsame : r'.mnemonic = r.mnemonic := (r'.mnemonic_build hr' _).symm.trans hname
    exact List.inj_on_of_nodup_map opcodeTable_mnemonics_nodup hr' hr hsame ▸ hw'

/-- Settles O4: a word of some row matches no other, and a word of none is rejected. -/
theorem everyWordMatchesOneRowOrIsIllegal : Obligations.EveryWordMatchesOneRowOrIsIllegal := by
  refine ⟨opcodeTable_mnemonics_nodup, fun w => ?_⟩
  by_cases hsome : ∃ r ∈ opcodeTable, r.isRowOf w = true
  · obtain ⟨r, hr, hw⟩ := hsome
    refine .inl ⟨r, hr, hw, fun r' hr' hw' => ?_, _, decode_eq_ok_of_isRowOf hr hw⟩
    rw [OpcodeRow.eq_of_isRowOf hr' hr hw' hw]
  · have hnone : ∀ r ∈ opcodeTable, r.isRowOf w = false := fun r hr =>
      Bool.eq_false_iff.mpr fun hw => hsome ⟨r, hr, hw⟩
    exact .inr ⟨hnone, (exists_decode_error_iff w).mpr hnone⟩

/-- Settles O6. -/
theorem workedEncodingsDecodeAsTheSpecSays : Obligations.WorkedEncodingsDecodeAsTheSpecSays := by
  refine ⟨?_, ?_, ?_, ?_, ?_, ?_⟩ <;> decide

end Sys2Proof

namespace Sys2Proof.Machine

/-! ### Illegal words (R82, R190) -/

/-- The words the decoder rejects are those whose fields form no command. -/
theorem exists_decode_error_iff_wellFormed (w : CmdWord) :
    (∃ e, decode w = .error e) ↔ ¬ (fieldsOfWord w).wellFormed = true := by
  rw [exists_decode_error_iff, ← exists_isRowOf_iff]
  simp only [not_exists, not_and, Bool.not_eq_true]

/-- R82: (a) an opcode without a format, or (b) a non-zero field that the format does not use. -/
theorem not_wellFormed_iff (x : Fields) :
    ¬ x.wellFormed = true ↔
      (x.op = 0x00#5 ∨ 0x17#5 ≤ x.op ∨
        ∃ fmt, formatOf x.op = some fmt ∧ ∃ n ∈ fmt.unused, x.isZero n = false) := by
  rw [← or_assoc, ← formatOf_eq_none_iff, Fields.wellFormed_iff]
  cases h : formatOf x.op <;> simp [Fields.Obeys]

/-- `s` with an illegal word answered: the response, and the word and the reset signal taken. -/
def State.afterIllegalWord (s : State) (rest : List CmdWord) : State :=
  { s with
    commands := rest
    responses := s.responses ++ [faultResponse .errIllegal]
    resetLine := s.resetLine.tail }

@[simp] theorem State.afterIllegalWord_trace (s : State) (rest : List CmdWord) :
    (s.afterIllegalWord rest).trace = s.trace := rfl

theorem advance_nextSignal_of_decode_error {s : State} {w : CmdWord} {rest : List CmdWord} {e : FormatError}
    (ha : s.activity = .idle) (hc : s.commands = w :: rest) (hd : decode w = .error e) :
    advance (nextSignal s) = .next (s.afterIllegalWord rest) := by
  have hadv : advance (nextSignal s) =
      .next (raise .errIllegal { nextSignal s with commands := rest }) :=
    advance_of_decode_error ha hc hd
  rw [hadv, raise, respond, ← ha]
  rfl

/-- Settles O5: which words are illegal is `not_wellFormed_iff`; the reset signal decides what becomes of
the answer. -/
theorem illegalWordsAreAnsweredErrIllegal : Obligations.IllegalWordsAreAnsweredErrIllegal := by
  refine ⟨fun w => (exists_decode_error_iff_wellFormed w).trans (not_wellFormed_iff _), ?_⟩
  intro s w rest e ha hc hd
  have hadv := advance_nextSignal_of_decode_error ha hc hd
  constructor
  · intro hlow
    simp only [step, hlow, hadv, State.afterIllegalWord]
  · intro n hin
    have hstep : step s = .next (abandonAfter n (nextSignal s) (s.afterIllegalWord rest)) := by
      simp only [step, hin, hadv, mapNext]
    obtain ⟨htrace, hresp, hdev, hact, -, hcmds, -⟩ :=
      abandonAfter_fields n (nextSignal s) (s.afterIllegalWord rest)
    refine ⟨_, hstep, hresp, ?_, hcmds, ?_, hact⟩
    · simp [htrace]
    · simp [hdev, State.nUnits]

end Sys2Proof.Machine
end

section
/-! The calibration derivation: the bounds of its intermediates, when its divisor is 0, and what `DERIVE`
and `BEGIN` make of its result. The four quantities are spoken of under their names, through the `_fold`
lemmas. -/

namespace Sys2Proof.Machine

/-! ### The intermediates of `Derive` (R107) -/

theorem plsbOf_le (ma : Word16) : plsbOf ma ≤ 50000750 := by
  have hclsb := clsbOf_le ma
  rw [← plsbOf_fold]
  omega

/-- The field that stores `clsb` loses nothing (R22). -/
theorem toNat_ofNat_clsbOf (ma : Word16) : (BitVec.ofNat 32 (clsbOf ma)).toNat = clsbOf ma := by
  have hclsb := clsbOf_le ma
  rw [BitVec.toNat_ofNat, Nat.mod_eq_of_lt (by omega)]

/-- The field that stores `plsb` loses nothing (R24). -/
theorem toNat_ofNat_plsbOf (ma : Word16) : (BitVec.ofNat 32 (plsbOf ma)).toNat = plsbOf ma := by
  have hplsb := plsbOf_le ma
  rw [BitVec.toNat_ofNat, Nat.mod_eq_of_lt (by omega)]

theorem clsbOf_mul_le (ma : Word16) (sh : Word32) : clsbOf ma * sh.toNat ≤ 8590063439018850 :=
  calc
    clsbOf ma * sh.toNat ≤ 2000030 * 4294967295 :=
      Nat.mul_le_mul (clsbOf_le ma) (Nat.le_of_lt_succ sh.isLt)
    _ = 8590063439018850 := rfl

theorem divisorOf_le (ma : Word16) (sh : Word32) : divisorOf ma sh ≤ 85900634390 := by
  rw [← divisorOf_fold]
  exact Nat.div_le_div_right (c := 100000) (clsbOf_mul_le ma sh)

theorem quotientOf_le (ma : Word16) (sh : Word32) : quotientOf ma sh ≤ 51200000 := by
  rw [← quotientOf_fold]
  exact Nat.div_le_self _ _

/-- Settles O14, from the bound of each intermediate. -/
theorem deriveIntermediatesAreBounded : Obligations.DeriveIntermediatesAreBounded := by
  refine ⟨fun ma sh => ?_, by decide, by decide⟩
  have hma := ma.isLt
  exact ⟨by omega, by decide, clsbOf_le ma, by decide, clsbOf_mul_le ma sh, by decide,
    divisorOf_le ma sh, by decide, quotientOf_le ma sh, by decide, plsbOf_le ma, by decide,
    toNat_ofNat_clsbOf ma, toNat_ofNat_plsbOf ma⟩

/-! ### The zero divisor (R109) -/

theorem divisorOf_eq_zero_iff (ma : Word16) (sh : Word32) :
    divisorOf ma sh = 0 ↔ clsbOf ma * sh.toNat < 100000 := by
  rw [← divisorOf_fold]
  exact Nat.div_eq_zero_iff_lt (by decide)

theorem deriveCoefficients_eq_none_iff_mul_lt (ma : Word16) (sh : Word32) :
    deriveCoefficients ma sh = none ↔ clsbOf ma * sh.toNat < 100000 :=
  (deriveCoefficients_eq_none_iff ma sh).trans (divisorOf_eq_zero_iff ma sh)

/-- The smallest `sh` with a result is `100000 / clsb` rounded up. -/
theorem deriveCoefficients_ne_none_iff_ceil_le {ma : Word16} (hclsb : 0 < clsbOf ma) (sh : Word32) :
    deriveCoefficients ma sh ≠ none ↔ (100000 + clsbOf ma - 1) / clsbOf ma ≤ sh.toNat := by
  rw [Ne, deriveCoefficients_eq_none_iff_mul_lt, Nat.not_lt, ← Nat.ceilDiv_eq_add_pred_div,
    ceilDiv_le_iff_le_mul hclsb]

/-! ### `DERIVE` (R101) -/

/-- What `DERIVE` answers. -/
def deriveResponse (ma : Word16) (sh : Word32) : Response :=
  if divisorOf ma sh = 0 then faultResponse .errDiv0
  else
    { status := .ok, res0 := BitVec.ofNat 32 (clsbOf ma), res1 := BitVec.ofNat 32 (plsbOf ma)
      res2 := BitVec.ofNat 16 (quotientOf ma sh) }

theorem deriveResponse_of_eq_zero {ma : Word16} {sh : Word32} (h : divisorOf ma sh = 0) :
    deriveResponse ma sh = faultResponse .errDiv0 := if_pos h

theorem deriveResponse_of_ne_zero {ma : Word16} {sh : Word32} (h : divisorOf ma sh ≠ 0) :
    deriveResponse ma sh =
      { status := .ok, res0 := BitVec.ofNat 32 (clsbOf ma), res1 := BitVec.ofNat 32 (plsbOf ma)
        res2 := BitVec.ofNat 16 (quotientOf ma sh) } := if_neg h

theorem exec_derive (ma : Word16) (sh : Word32) (s : State) :
    exec (.derive ma sh) s = .next (respond (deriveResponse ma sh) s) := by
  rcases exec_derive_cases ma sh s with ⟨hdiv, h⟩ | ⟨c, hc, h⟩
  · rw [h, deriveResponse_of_eq_zero hdiv]
    rfl
  · obtain ⟨hdiv, rfl⟩ := (deriveCoefficients_eq_some_iff ma sh c).mp hc
    rw [h, deriveResponse_of_ne_zero hdiv]

theorem exec_derive_endsWith (ma : Word16) (sh : Word32) (s : State) :
    ∃ t, exec (.derive ma sh) s = .next t ∧ EndsWith s t s.dev (deriveResponse ma sh) [] :=
  ⟨_, exec_derive ma sh s, (MadeCalls.refl s).endsWith _⟩

theorem ofNat_mod_65536 (q : Nat) : BitVec.ofNat 16 (q % 65536) = BitVec.ofNat 16 q :=
  BitVec.eq_of_toNat_eq (by simp)

/-- Settles O13: the response of `exec_derive_endsWith`, with the quotient's low 16 bits written out. -/
theorem deriveReturnsTheTriple : Obligations.DeriveReturnsTheTriple := by
  intro ma sh s
  refine ⟨(encodedAs_iff _ _ _).mpr ⟨rfl, rfl⟩, ?_⟩
  simp only [clsbOf_fold, divisorOf_fold, quotientOf_fold, plsbOf_fold, ofNat_mod_65536]
  exact exec_derive_endsWith ma sh s

/-- `BEGIN` tests its divisor before its first call (R171, R192). -/
theorem exec_begin_endsWith_errDiv0 {u : UnitId} {ma : Word16} {sh : Word32} {s : State}
    (hu : u.toNat < s.nUnits) (hdiv : divisorOf ma sh = 0) (addr : BusAddr) :
    ∃ t, exec (.begin u addr ma sh) s = .next t ∧ EndsWith s t s.dev (faultResponse .errDiv0) [] := by
  rcases exec_begin_cases u addr ma sh s with ⟨hu', _⟩ | ⟨_, _, h⟩ | ⟨c, _, hc, _⟩
  · exact absurd hu (Nat.not_lt.mpr hu')
  · exact ⟨_, h, (MadeCalls.refl s).endsWith _⟩
  · exact absurd hdiv ((deriveCoefficients_eq_some_iff ma sh c).mp hc).1

/-- Settles O16: `Derive` without a result is the product bound, and then neither command gets past its
test of the divisor. -/
theorem divisorIsZeroExactlyBelowTheProductBound :
    Obligations.DivisorIsZeroExactlyBelowTheProductBound := by
  refine ⟨fun ma sh => ⟨deriveCoefficients_eq_none_iff_mul_lt ma sh,
      fun hclsb => deriveCoefficients_ne_none_iff_ceil_le hclsb sh⟩,
    fun sh => ?_, fun ma => ?_, fun ma sh s hlt => ?_, by decide, by decide, by decide, by decide⟩
  · have hclsb : clsbOf 0 = 0 := by decide
    rw [deriveCoefficients_eq_none_iff_mul_lt, hclsb, Nat.zero_mul]
    decide
  · simp [deriveCoefficients_eq_none_iff_mul_lt]
  · have hdiv := (divisorOf_eq_zero_iff ma sh).mpr hlt
    exact ⟨deriveResponse_of_eq_zero hdiv ▸ exec_derive_endsWith ma sh s,
      fun u addr hu => exec_begin_endsWith_errDiv0 hu hdiv addr⟩

/-! ### The calibration (R108) -/

theorem quotientOf_lt_iff {ma : Word16} {sh : Word32} (h : divisorOf ma sh ≠ 0) :
    quotientOf ma sh < 65536 ↔ 782 ≤ divisorOf ma sh := by
  rw [← quotientOf_fold, Nat.div_lt_iff_lt_mul (Nat.pos_of_ne_zero h)]
  omega

theorem quotientOf_eq_zero_iff {ma : Word16} {sh : Word32} (h : divisorOf ma sh ≠ 0) :
    quotientOf ma sh = 0 ↔ 51200000 < divisorOf ma sh := by
  rw [← quotientOf_fold]
  exact Nat.div_eq_zero_iff_lt (Nat.pos_of_ne_zero h)

theorem exists_deriveCoefficients {ma : Word16} {sh : Word32} (h : divisorOf ma sh ≠ 0) :
    ∃ c, deriveCoefficients ma sh = some c :=
  ⟨_, (deriveCoefficients_eq_some_iff ma sh _).mpr ⟨h, rfl⟩⟩

theorem toNat_cal_of_deriveCoefficients {ma : Word16} {sh : Word32} {c : Coefficients}
    (hc : deriveCoefficients ma sh = some c) : c.cal.toNat = quotientOf ma sh % 65536 := by
  obtain ⟨_, rfl⟩ := (deriveCoefficients_eq_some_iff ma sh c).mp hc
  exact BitVec.toNat_ofNat _ _

theorem exec_derive_res2 {ma : Word16} {sh : Word32} (h : divisorOf ma sh ≠ 0) (s : State) :
    ∃ t r, exec (.derive ma sh) s = .next t ∧ newResponses s t = [r] ∧ r.status = .ok ∧
      r.res2.toNat = quotientOf ma sh % 65536 := by
  have hr := deriveResponse_of_ne_zero h
  refine ⟨_, deriveResponse ma sh, exec_derive ma sh s, by simp [newResponses], by rw [hr], ?_⟩
  rw [hr]
  exact BitVec.toNat_ofNat _ _

/-- The one word a `BEGIN` that succeeds writes to `CALIB` (R171). -/
theorem calib_write_mem_successCalls {addr a : BusAddr} {c : Coefficients} {p : Config.Params} {v : Word16}
    (h : BusEvent.write a .calib v ∈ successCalls addr c p) : v = c.cal := by
  obtain ⟨_, hv⟩ : a = addr ∧ v = c.cal := by simpa [successCalls] using h
  exact hv

/-- The word `BEGIN` writes to `CALIB` comes from `Derive`. -/
theorem exec_begin_calib_write_derived {u : UnitId} {addr a : BusAddr} {ma : Word16} {sh : Word32}
    {s t : State} {v : Word16} (h : exec (.begin u addr ma sh) s = .next t)
    (hw : BusEvent.write a .calib v ∈ newEvents s t) :
    ∃ c, deriveCoefficients ma sh = some c ∧ v = c.cal := by
  rw [newEvents_exec h] at hw
  obtain ⟨d, _, hmem⟩ := exists_record_of_mem_commandCalls hw
  obtain ⟨c, hc, hcall⟩ := exists_of_mem_recordCalls_begin hmem
  obtain ⟨_, _, hcalls⟩ := beginCalls_of_calib_write hcall
  exact ⟨c, hc, calib_write_mem_successCalls (hcalls ▸ hcall)⟩

/-- The word `BEGIN` writes to `CALIB` is the copy it stores (R23, R171). -/
theorem exec_begin_calib_write_stored {u : UnitId} {addr a : BusAddr} {ma : Word16} {sh : Word32}
    {s t : State} {v : Word16} (h : exec (.begin u addr ma sh) s = .next t)
    (hw : BusEvent.write a .calib v ∈ newEvents s t) :
    (t.dev[u.toNat]?).map DeviceRecord.calibration = some v := by
  obtain ⟨c, hu, hdev, htrace⟩ := exec_begin_of_calib_write h hw
  rw [newEvents_of_trace htrace] at hw
  rw [hdev, List.getElem?_set_self hu, calib_write_mem_successCalls hw]
  rfl

/-- Settles O15: returned, stored and written, the calibration is that of `Derive`. -/
theorem calibrationKeepsTheLowSixteenBits : Obligations.CalibrationKeepsTheLowSixteenBits := by
  refine ⟨fun ma sh hdiv => ?_, by decide, by decide, by decide, by decide⟩
  obtain ⟨c, hc⟩ := exists_deriveCoefficients hdiv
  refine ⟨⟨c, hc, toNat_cal_of_deriveCoefficients hc⟩, quotientOf_lt_iff hdiv,
    quotientOf_eq_zero_iff hdiv, fun s => ⟨exec_derive_res2 hdiv s, fun u addr a v t h hw => ?_⟩⟩
  obtain ⟨c', hc', rfl⟩ := exec_begin_calib_write_derived h hw
  exact ⟨toNat_cal_of_deriveCoefficients hc', exec_begin_calib_write_stored h hw⟩

end Sys2Proof.Machine
end

section
/-! The four scalers: each is one division truncating toward zero, from which its bounds, its exactness and
its sign follow; and what the four commands that expose them answer. -/

namespace Sys2Proof.Machine

/-! ### Truncation toward zero (R14, R115) -/

theorem truncatesTo_tdiv (p : Int) {d : Int} (hd : 0 < d) : truncatesTo p d (p.tdiv d) := by
  have hsum : d * p.tdiv d + p.tmod d = p := Int.mul_tdiv_add_tmod p d
  constructor
  · intro hp
    have hlo : 0 ≤ p.tmod d := Int.tmod_nonneg d hp
    have hhi : p.tmod d < d := Int.tmod_lt_of_pos p hd
    constructor <;> linarith
  · intro hp
    have hlo : -d < p.tmod d := Int.lt_tmod_of_pos p hd
    have hhi : 0 ≤ (-p).tmod d := Int.tmod_nonneg d (by omega)
    rw [Int.neg_tmod] at hhi
    constructor <;> linarith

theorem truncatesTo_div (n : Nat) {d : Nat} (hd : 0 < d) : truncatesTo n d (n / d : Nat) := by
  rw [Int.ofNat_tdiv]
  exact truncatesTo_tdiv n (Int.natCast_pos.mpr hd)

theorem scaleBus_truncatesTo (raw : Word16) : truncatesTo (raw.toNat * 125) 100 (scaleBus raw) :=
  truncatesTo_div (raw.toNat * 125) (by decide)

theorem scaleShunt_truncatesTo (raw : Word16) : truncatesTo (raw.toInt * 25) 10 (scaleShunt raw) :=
  truncatesTo_tdiv _ (by decide)

theorem scaleCur_truncatesTo (raw : Word16) (clsb : Word32) :
    truncatesTo (raw.toInt * clsb.toNat) 1000 (scaleCur raw clsb) :=
  truncatesTo_tdiv _ (by decide)

theorem scalePwr_truncatesTo (raw : Word16) (plsb : Word32) :
    truncatesTo (raw.toNat * plsb.toNat) 1000 (scalePwr raw plsb) := by
  rw [← Int.natCast_mul]
  exact truncatesTo_div (raw.toNat * plsb.toNat) (by decide)

/-! ### Where the voltage scalers are exact, and oddness (R118, R120) -/

theorem scaleBus_exact_iff (raw : Word16) : 100 * scaleBus raw = 125 * raw.toNat ↔ raw.toNat % 4 = 0 := by
  have hdvd : 100 * scaleBus raw = 125 * raw.toNat ↔ 100 ∣ raw.toNat * 125 := by
    rw [scaleBus, Nat.mul_comm 125, Nat.mul_div_eq_iff_dvd]
  omega

theorem scaleShunt_exact_iff (raw : Word16) :
    10 * scaleShunt raw = 25 * raw.toInt ↔ raw.toInt % 2 = 0 := by
  have hdvd : 10 * scaleShunt raw = 25 * raw.toInt ↔ 10 ∣ raw.toInt * 25 := by
    rw [scaleShunt, Int.mul_comm 25]
    exact ⟨Dvd.intro _, Int.mul_tdiv_cancel'⟩
  omega

/-- Only 0x8000 has no negation in sixteen bits. -/
theorem scaleShunt_neg {raw : Word16} (h : raw ≠ 0x8000#16) : scaleShunt (-raw) = -scaleShunt raw := by
  have hneg : (-raw).toInt = -raw.toInt := BitVec.toInt_neg_of_ne_intMin h
  rw [scaleShunt, hneg, Int.neg_mul, Int.neg_tdiv, ← scaleShunt]

/-- Settles O20: every scaler is one truncating division; the rest is about single products. -/
theorem scalersTruncateTowardZero : Obligations.ScalersTruncateTowardZero :=
  ⟨fun raw lsb => ⟨scaleBus_truncatesTo raw, scaleShunt_truncatesTo raw, scaleCur_truncatesTo raw lsb,
      scalePwr_truncatesTo raw lsb⟩,
    scaleBus_exact_iff, by decide, by decide, scaleShunt_exact_iff, fun _ => scaleShunt_neg, by decide⟩

/-! ### Bounds (R116) -/

theorem toNat_asU32 {v : Nat} (h : v < 2 ^ 32) : (asU32 v).toNat = v := by
  rw [asU32, BitVec.toNat_ofNat, Nat.mod_eq_of_lt h]

theorem toInt_asS32 {v : Int} (hlo : -2 ^ 31 ≤ v) (hhi : v < 2 ^ 31) : (asS32 v).toInt = v :=
  BitVec.toInt_ofInt_eq_self (by decide) hlo hhi

/-- The smallest and the largest value of a raw word as two's complement (R14). -/
theorem word16_toInt_bounds (raw : Word16) : -32768 ≤ raw.toInt ∧ raw.toInt ≤ 32767 :=
  ⟨raw.le_toInt, raw.toInt_le⟩

theorem scaleBus_product_le (raw : Word16) : raw.toNat * 125 ≤ 8191875 := by
  have hraw := raw.isLt
  omega

theorem scaleBus_le (raw : Word16) : scaleBus raw ≤ 81918 :=
  Nat.div_le_div_right (c := 100) (scaleBus_product_le raw)

theorem scaleShunt_product_bounds (raw : Word16) :
    -819200 ≤ raw.toInt * 25 ∧ raw.toInt * 25 ≤ 819175 := by
  have hraw := word16_toInt_bounds raw
  omega

theorem scaleShunt_bounds (raw : Word16) : -81920 ≤ scaleShunt raw ∧ scaleShunt raw ≤ 81917 := by
  obtain ⟨hlo, hhi⟩ := scaleShunt_product_bounds raw
  exact ⟨Int.tdiv_le_tdiv (c := 10) (by decide) hlo, Int.tdiv_le_tdiv (c := 10) (by decide) hhi⟩

/-- The product of `ScaleCur` under the range of R46, with its sign: the negative side reaches one count
further. -/
theorem scaleCur_product_bounds (raw : Word16) {clsb : Word32} (h : clsb.toNat ≤ 2000030) :
    -65536983040 ≤ raw.toInt * clsb.toNat ∧ raw.toInt * clsb.toNat ≤ 65534983010 := by
  obtain ⟨hlo, hhi⟩ := word16_toInt_bounds raw
  have hclsb : (0 : Int) ≤ clsb.toNat := Int.natCast_nonneg _
  have hlow : -32768 * (clsb.toNat : Int) ≤ raw.toInt * clsb.toNat :=
    Int.mul_le_mul_of_nonneg_right hlo hclsb
  have hhigh : raw.toInt * clsb.toNat ≤ 32767 * (clsb.toNat : Int) :=
    Int.mul_le_mul_of_nonneg_right hhi hclsb
  omega

theorem scaleCur_bounds (raw : Word16) {clsb : Word32} (h : clsb.toNat ≤ 2000030) :
    -65536983 ≤ scaleCur raw clsb ∧ scaleCur raw clsb ≤ 65534983 := by
  obtain ⟨hlo, hhi⟩ := scaleCur_product_bounds raw h
  exact ⟨Int.tdiv_le_tdiv (c := 1000) (by decide) hlo, Int.tdiv_le_tdiv (c := 1000) (by decide) hhi⟩

theorem scalePwr_product_le (raw : Word16) {plsb : Word32} (h : plsb.toNat ≤ 50000750) :
    raw.toNat * plsb.toNat ≤ 3276799151250 :=
  calc
    raw.toNat * plsb.toNat ≤ 65535 * 50000750 := Nat.mul_le_mul (Nat.le_of_lt_succ raw.isLt) h
    _ = 3276799151250 := rfl

theorem scalePwr_le (raw : Word16) {plsb : Word32} (h : plsb.toNat ≤ 50000750) :
    scalePwr raw plsb ≤ 3276799151 :=
  Nat.div_le_div_right (c := 1000) (scalePwr_product_le raw h)

/-- Settles O19: the results fit 32 bits because of their bounds, the power result as unsigned only. -/
theorem scalersNeverOverflow : Obligations.ScalersNeverOverflow := by
  refine ⟨fun raw clsb plsb hclsb hplsb => ?_, by decide, by decide, by decide⟩
  have hbus := scaleBus_le raw
  obtain ⟨hshuntProductLo, hshuntProductHi⟩ := scaleShunt_product_bounds raw
  obtain ⟨hshuntLo, hshuntHi⟩ := scaleShunt_bounds raw
  have hcurProduct := scaleCur_product_bounds raw hclsb
  obtain ⟨hcurLo, hcurHi⟩ := scaleCur_bounds raw hclsb
  have hpwr := scalePwr_le raw hplsb
  exact ⟨scaleBus_product_le raw, hbus, toNat_asU32 (by omega),
    hshuntProductLo, hshuntProductHi, hshuntLo, hshuntHi, toInt_asS32 (by omega) (by omega),
    by omega, by decide, hcurLo, hcurHi, toInt_asS32 (by omega) (by omega),
    scalePwr_product_le raw hplsb, by decide, hpwr, by decide, toNat_asU32 (by omega)⟩

/-! ### The commands -/

/-- The answer of a command that looks up its record and makes no call (R191): the fault, or `r` of the
record. -/
def unitResponse (u : UnitId) (s : State) (r : DeviceRecord → Response) : Response :=
  match s.dev[u.toNat]? with
  | none => faultResponse .errUnit
  | some d => r d

theorem withUnit_respond (u : UnitId) (s : State) (r : DeviceRecord → Response) :
    withUnit u s (fun d => respond (r d) s) = respond (unitResponse u s r) s := by
  rcases withUnit_cases u s fun d => respond (r d) s with ⟨d, hd, hw⟩ | ⟨_, hd, hw⟩
  · rw [hw, unitResponse, hd]
  · rw [hw, unitResponse, hd, raise_eq_respond, faultResponse]

/-- A command that only looks up its record changes nothing but the responses. -/
theorem exec_endsWith_unitResponse {i : Instr} {u : UnitId} {s : State} {r : DeviceRecord → Response}
    (h : exec i s = .next (withUnit u s fun d => respond (r d) s)) :
    ∃ t, exec i s = .next t ∧ EndsWith s t s.dev (unitResponse u s r) [] :=
  ⟨_, h.trans (congrArg _ (withUnit_respond u s r)), (MadeCalls.refl s).endsWith _⟩

theorem exec_scaleBus_endsWith (raw : Word16) (s : State) :
    ∃ t, exec (.scaleBus raw) s = .next t ∧ EndsWith s t s.dev (okRes0 (asU32 (scaleBus raw))) [] :=
  ⟨_, rfl, (MadeCalls.refl s).endsWith _⟩

theorem exec_scaleShunt_endsWith (raw : Word16) (s : State) :
    ∃ t, exec (.scaleShunt raw) s = .next t ∧ EndsWith s t s.dev (okRes0 (asS32 (scaleShunt raw))) [] :=
  ⟨_, rfl, (MadeCalls.refl s).endsWith _⟩

theorem exec_scaleCur_endsWith (u : UnitId) (raw : Word16) (s : State) :
    ∃ t, exec (.scaleCur u raw) s = .next t ∧
      EndsWith s t s.dev (unitResponse u s fun d => okRes0 (asS32 (scaleCur raw d.currentLsb))) [] :=
  exec_endsWith_unitResponse rfl

theorem exec_scalePwr_endsWith (u : UnitId) (raw : Word16) (s : State) :
    ∃ t, exec (.scalePwr u raw) s = .next t ∧
      EndsWith s t s.dev (unitResponse u s fun d => okRes0 (asU32 (scalePwr raw d.powerLsb))) [] :=
  exec_endsWith_unitResponse rfl

/-- Settles O17: neither command looks anything up, so each ends at once. -/
theorem voltageScalersReturnTheScaledRaw : Obligations.VoltageScalersReturnTheScaledRaw := fun raw s =>
  ⟨(encodedAs_iff _ _ _).mpr ⟨rfl, rfl⟩, (encodedAs_iff _ _ _).mpr ⟨rfl, rfl⟩,
    exec_scaleBus_endsWith raw s, exec_scaleShunt_endsWith raw s⟩

/-- Settles O18: the record is looked up, and then each command ends at once. -/
theorem currentAndPowerScalersUseTheRecord : Obligations.CurrentAndPowerScalersUseTheRecord :=
  fun u raw s =>
    ⟨(encodedAs_iff _ _ _).mpr ⟨rfl, rfl⟩, (encodedAs_iff _ _ _).mpr ⟨rfl, rfl⟩,
      exec_scaleCur_endsWith u raw s, exec_scalePwr_endsWith u raw s⟩

end Sys2Proof.Machine
end

section
/-! The words the commands of the mode and timing family write, bit by bit and field by field (R33, R130):
the word as read with one field replaced, the mode word of `SET_MODE`, the alert bit, the averaging index. -/

namespace Sys2Proof.Machine

/-! ### Bits of a word written back -/

/-- Bit by bit, a read-modify-write keeps what neither mask names (R130), above bit 15 too. -/
theorem getLsbD_rmwWord (clear set c : Word16) (k : Nat) :
    (rmwWord clear set c).getLsbD k = ((c.getLsbD k && !clear.getLsbD k) || set.getLsbD k) := by
  by_cases hk : k < 16
  · exact rmwWord_getLsbD clear set c k hk
  · have hge : 16 ≤ k := Nat.le_of_not_lt hk
    simp [BitVec.getLsbD_of_ge _ k hge]

/-- A field depends on its own bits only. -/
theorem extractLsb'_congr {lo n : Nat} {v c : Word16}
    (h : ∀ k, lo ≤ k → k < lo + n → v.getLsbD k = c.getLsbD k) :
    v.extractLsb' lo n = c.extractLsb' lo n := by
  apply BitVec.eq_of_getLsbD_eq
  intro k hk
  rw [BitVec.getLsbD_extractLsb', BitVec.getLsbD_extractLsb', h (lo + k) (by omega) (by omega)]

/-! ### A three-bit field of `CONFIG` replaced (R136, R140, R142) -/

/-- The word written by a setter of the three-bit field at `lo`. -/
def withField (lo : Nat) (x c : Word16) : Word16 := rmwWord (7#16 <<< lo) (x <<< lo) c

theorem rmwWord_avgMask (x c : Word16) : rmwWord avgMask (x <<< 9) c = withField 9 x c := rfl

theorem rmwWord_busCtMask (x c : Word16) : rmwWord busCtMask (x <<< 6) c = withField 6 x c := rfl

theorem rmwWord_shuntCtMask (x c : Word16) : rmwWord shuntCtMask (x <<< 3) c = withField 3 x c := rfl

/-- A value below 8 has its bits below bit 3. -/
theorem getLsbD_eq_false_of_lt_eight {x : Word16} (hx : x.toNat < 8) {k : Nat} (hk : 3 ≤ k) :
    x.getLsbD k = false :=
  Nat.testBit_lt_two_pow (hx.trans_le (Nat.pow_le_pow_right (n := 2) (by decide) hk))

theorem getLsbD_seven (k : Nat) : (7#16).getLsbD k = decide (k < 3) := by
  by_cases hk : k < 3
  · interval_cases k <;> rfl
  · rw [getLsbD_eq_false_of_lt_eight (by decide) (Nat.le_of_not_lt hk), decide_eq_false hk]

theorem getLsbD_withField_of_lt {lo k : Nat} (h : k < lo) (x c : Word16) :
    (withField lo x c).getLsbD k = c.getLsbD k := by
  simp [withField, getLsbD_rmwWord, h]

theorem getLsbD_withField_of_ge {lo k : Nat} {x : Word16} (hx : x.toNat < 8) (h : lo + 3 ≤ k) (c : Word16) :
    (withField lo x c).getLsbD k = c.getLsbD k := by
  have hk : 3 ≤ k - lo := by omega
  simp [withField, getLsbD_rmwWord, getLsbD_eq_false_of_lt_eight hx hk, getLsbD_seven, hk]

/-- The field itself holds the new value. -/
theorem extractLsb'_withField {lo : Nat} (hlo : lo + 3 ≤ 16) (x c : Word16) :
    (withField lo x c).extractLsb' lo 3 = x.setWidth 3 := by
  apply BitVec.eq_of_getLsbD_eq
  intro k hk
  have hk16 : lo + k < 16 := by omega
  rw [BitVec.getLsbD_extractLsb', withField, getLsbD_rmwWord, BitVec.getLsbD_shiftLeft,
    BitVec.getLsbD_shiftLeft, Nat.add_sub_cancel_left, getLsbD_seven, BitVec.getLsbD_setWidth]
  simp [hk, hk16]

/-- The fields below keep theirs. -/
theorem extractLsb'_withField_below {lo lo' n : Nat} (h : lo' + n ≤ lo) (x c : Word16) :
    (withField lo x c).extractLsb' lo' n = c.extractLsb' lo' n :=
  extractLsb'_congr fun _ _ hk => getLsbD_withField_of_lt (hk.trans_le h) x c

/-- The fields above keep theirs. -/
theorem extractLsb'_withField_above {lo lo' n : Nat} {x : Word16} (hx : x.toNat < 8) (h : lo + 3 ≤ lo')
    (c : Word16) : (withField lo x c).extractLsb' lo' n = c.extractLsb' lo' n :=
  extractLsb'_congr fun _ hk _ => getLsbD_withField_of_ge hx (h.trans hk) c

/-! ### The values the setters put there -/

/-- The clamp is a saturation (R140). -/
theorem toNat_clampCode (code : Word16) : (clampCode code).toNat = min code.toNat 7 := by
  unfold clampCode
  split
  · have h7 : (7 : Word16).toNat = 7 := rfl
    omega
  · omega

theorem toNat_clampCode_lt (code : Word16) : (clampCode code).toNat < 8 := by
  rw [toNat_clampCode]
  omega

/-- A clamped code fits its field. -/
theorem toNat_setWidth_clampCode (code : Word16) :
    ((clampCode code).setWidth 3).toNat = min code.toNat 7 := by
  rw [BitVec.toNat_setWidth, Nat.mod_eq_of_lt (toNat_clampCode_lt code), toNat_clampCode]

/-- Index `i` is the tier of a count: the count reaches it, unless it is the lowest, and does not reach the
next (R137). -/
structure IsTierOf (i : Fin 8) (count : Nat) : Prop where
  reached : i = 0 ∨ avgSamples i ≤ count
  nextNotReached : i = 7 ∨ count < avgSamples (i + 1)

/-- The comparisons of `AvgIndex`, from the highest tier down, find the count's tier. -/
theorem avgIndex_isTierOf (count : Word16) :
    ∃ i : Fin 8, (avgIndex count).toNat = i.val ∧ IsTierOf i count.toNat := by
  unfold avgIndex
  split_ifs with h1024 h512 h256 h128 h64 h16 h4
  · exact ⟨7, rfl, .inr h1024, .inl rfl⟩
  · exact ⟨6, rfl, .inr h512, .inr (Nat.lt_of_not_le h1024)⟩
  · exact ⟨5, rfl, .inr h256, .inr (Nat.lt_of_not_le h512)⟩
  · exact ⟨4, rfl, .inr h128, .inr (Nat.lt_of_not_le h256)⟩
  · exact ⟨3, rfl, .inr h64, .inr (Nat.lt_of_not_le h128)⟩
  · exact ⟨2, rfl, .inr h16, .inr (Nat.lt_of_not_le h64)⟩
  · exact ⟨1, rfl, .inr h4, .inr (Nat.lt_of_not_le h16)⟩
  · exact ⟨0, rfl, .inl rfl, .inr (Nat.lt_of_not_le h4)⟩

theorem toNat_avgIndex_lt (count : Word16) : (avgIndex count).toNat < 8 := by
  obtain ⟨i, hi, _⟩ := avgIndex_isTierOf count
  rw [hi]
  exact i.isLt

/-- The tiers of R35 grow with the index. -/
theorem avgSamples_succ_le : ∀ {i j : Fin 8}, i < j → avgSamples (i + 1) ≤ avgSamples j := by decide

theorem IsTierOf.le_of_avgSamples_le {i : Fin 8} {count : Nat} (h : IsTierOf i count) {j : Fin 8}
    (hj : avgSamples j ≤ count) : j ≤ i := by
  rcases h.nextNotReached with rfl | hnext
  · exact Fin.le_last j
  · by_contra hlt
    have htier := avgSamples_succ_le (not_le.mp hlt)
    omega

/-- Every count but 0 reaches the tier of one sample (R138). -/
theorem IsTierOf.avgSamples_le {i : Fin 8} {count : Nat} (h : IsTierOf i count) (hpos : 0 < count) :
    avgSamples i ≤ count := by
  rcases h.reached with rfl | hle
  · exact hpos
  · exact hle

/-- Every tier but the lowest takes a count of 4 (R138). -/
theorem four_le_avgSamples : ∀ {i : Fin 8}, i ≠ 0 → 4 ≤ avgSamples i := by decide

theorem IsTierOf.eq_zero {i : Fin 8} {count : Nat} (h : IsTierOf i count) (hle : count ≤ 3) : i = 0 := by
  by_contra hi
  have hfour := four_le_avgSamples hi
  have hreached := h.reached.resolve_left hi
  omega

/-- Settles O26: `AvgIndex` finds the count's tier, and the tiers grow with the index. -/
theorem averagingIndexIsTheLargestTierNotExceeding :
    Obligations.AveragingIndexIsTheLargestTierNotExceeding := by
  refine ⟨fun count => ?_, by decide, by decide, by decide, by decide⟩
  obtain ⟨i, hi, htier⟩ := avgIndex_isTierOf count
  exact ⟨i, hi, htier.avgSamples_le, fun _ => htier.le_of_avgSamples_le, htier.eq_zero⟩

/-! ### The mode word of `SET_MODE` (R131, R132) -/

/-- The word `SET_MODE` writes. -/
def modeWord (m c : Word16) : Word16 := rmwWord modeMask (modeOperand m) c

theorem getLsbD_modeOperand (m : Word16) (k : Nat) :
    (modeOperand m).getLsbD k = (m.getLsbD k && decide (k < 4)) := by
  have hmask : (0x000F#16).getLsbD k = decide (k < 4) := by
    by_cases hk : k < 4
    · interval_cases k <;> rfl
    · rw [decide_eq_false hk]
      exact Nat.testBit_lt_two_pow (Nat.pow_le_pow_right (n := 2) (by decide) (Nat.le_of_not_lt hk))
  rw [modeOperand, BitVec.getLsbD_and, hmask]

theorem getLsbD_modeWord (m c : Word16) (k : Nat) :
    (modeWord m c).getLsbD k =
      ((c.getLsbD k && !decide (k < 3)) || (m.getLsbD k && decide (k < 4))) := by
  rw [modeWord, getLsbD_rmwWord, getLsbD_modeOperand, modeMask, getLsbD_seven]

theorem getLsbD_modeWord_of_lt {k : Nat} (h : k < 3) (m c : Word16) :
    (modeWord m c).getLsbD k = m.getLsbD k := by
  have h4 : k < 4 := by omega
  simp [getLsbD_modeWord, h, h4]

theorem getLsbD_modeWord_three (m c : Word16) :
    (modeWord m c).getLsbD 3 = (c.getLsbD 3 || m.getLsbD 3) := by
  rw [getLsbD_modeWord]
  simp

theorem getLsbD_modeWord_of_ge {k : Nat} (h : 4 ≤ k) (m c : Word16) :
    (modeWord m c).getLsbD k = c.getLsbD k := by
  have h3 : ¬ k < 3 := by omega
  have h4 : ¬ k < 4 := by omega
  simp [getLsbD_modeWord, h3, h4]

/-- With bit 3 of the operand clear, bit 3 is written back as read too (R132). -/
theorem getLsbD_modeWord_of_three_clear {m : Word16} (hm : m.getLsbD 3 = false) {k : Nat} (h : 3 ≤ k)
    (c : Word16) : (modeWord m c).getLsbD k = c.getLsbD k := by
  rcases Nat.eq_or_lt_of_le h with rfl | h4
  · rw [getLsbD_modeWord_three, hm, Bool.or_false]
  · exact getLsbD_modeWord_of_ge h4 m c

theorem extractLsb'_modeWord_above {lo n : Nat} (h : 4 ≤ lo) (m c : Word16) :
    (modeWord m c).extractLsb' lo n = c.extractLsb' lo n :=
  extractLsb'_congr fun _ hk _ => getLsbD_modeWord_of_ge (h.trans hk) m c

theorem configMode_modeWord (m c : Word16) : configMode (modeWord m c) = m.extractLsb' 0 3 :=
  extractLsb'_congr fun _ _ hk => getLsbD_modeWord_of_lt (by omega) m c

/-- The lowest bit of the shunt conversion-time field is the one `SET_MODE` may set (R132, R152). -/
theorem configShuntCt_modeWord (m c : Word16) :
    configShuntCt (modeWord m c) = configShuntCt c ||| (m.extractLsb' 3 1).setWidth 3 := by
  apply BitVec.eq_of_getLsbD_eq
  intro k hk
  cases k with
  | zero =>
    have hbit := getLsbD_modeWord_three m c
    simpa [configShuntCt] using hbit
  | succ k =>
    have hbit := getLsbD_modeWord_of_ge (show 4 ≤ 3 + (k + 1) by omega) m c
    simp [configShuntCt, hbit, hk]

/-- The cache holds the low four bits of the operand (R25). -/
theorem modeCache_eq_extractLsb' (m : Word16) : modeCache m = m.extractLsb' 0 4 :=
  extractLsb'_congr fun k _ hk => by
    rw [getLsbD_modeOperand, decide_eq_true (by omega), Bool.and_true]

/-- `GET_MODE` widens the cache to the masked operand (R134). -/
theorem setWidth_modeCache (m : Word16) :
    (modeCache m).setWidth 32 = (m &&& 0x000F#16).setWidth 32 := by
  apply BitVec.eq_of_getLsbD_eq
  intro k hk
  have hbit : (m &&& 0x000F#16).getLsbD k = (m.getLsbD k && decide (k < 4)) := getLsbD_modeOperand m k
  rw [modeCache_eq_extractLsb', BitVec.getLsbD_setWidth, BitVec.getLsbD_setWidth, hbit,
    BitVec.getLsbD_extractLsb', Nat.zero_add, Bool.and_comm (m.getLsbD k)]

/-! ### The alert bit (R150) -/

/-- The word `SET_ALERT_CNVR` writes. -/
def alertWord (p : Config.Params) (enabled : Bool) (c : Word16) : Word16 :=
  if enabled then rmwWord 0x0000 (alertBit p) c else rmwWord (alertBit p) 0x0000 c

theorem getLsbD_alertBit (p : Config.Params) (k : Nat) :
    (alertBit p).getLsbD k = decide (k = p.cnvrBit.val) := by
  have hbit : alertBit p = BitVec.twoPow 16 p.cnvrBit.val := (BitVec.twoPow_eq _ _).symm
  have hlt := p.cnvrBit.isLt
  rw [hbit, BitVec.getLsbD_twoPow]
  simp [hlt, eq_comm]

theorem getLsbD_alertWord (p : Config.Params) (enabled : Bool) (c : Word16) (k : Nat) :
    (alertWord p enabled c).getLsbD k = if k = p.cnvrBit.val then enabled else c.getLsbD k := by
  rw [alertWord, apply_ite (BitVec.getLsbD · k), getLsbD_rmwWord, getLsbD_rmwWord, getLsbD_alertBit]
  by_cases hk : k = p.cnvrBit.val <;> cases enabled <;> simp [hk]

end Sys2Proof.Machine
end

section
/-! What each command of the mode and timing family makes of its record: its calls, its response, and the
registry; and the device after `RESET`. -/

namespace Sys2Proof.Machine

/-! ### Ending on a record -/

theorem EndsWith.newResponses_eq {s t : State} {dev' : List DeviceRecord} {r : Response}
    {es : List BusEvent} (h : EndsWith s t dev' r es) : newResponses s t = [r] := by
  rw [newResponses, h.responses, List.drop_left]

theorem EndsWith.newEvents_eq {s t : State} {dev' : List DeviceRecord} {r : Response}
    {es : List BusEvent} (h : EndsWith s t dev' r es) : newEvents s t = es :=
  newEvents_of_trace h.trace

/-- A command that looks up its unit (R191) has ended in `t`: with the fault and no call where there is no
record, else with `OK`, the calls `es` and the registry `dev'` of the record. -/
def EndsOnRecord (s t : State) (dev' : DeviceRecord → List DeviceRecord)
    (es : DeviceRecord → List BusEvent) : Option DeviceRecord → Prop
  | none => EndsWith s t s.dev (faultResponse .errUnit) []
  | some d => EndsWith s t (dev' d) okResponse (es d)

/-- A unit that names no record ends its command without a call (R191). -/
theorem withUnit_endsWith_errUnit {u : UnitId} {s : State} {k : DeviceRecord → State}
    (h : s.dev[u.toNat]? = none) : EndsWith s (withUnit u s k) s.dev (faultResponse .errUnit) [] := by
  rw [withUnit_none h]
  exact (MadeCalls.refl s).endsWith _

theorem withUnit_endsOnRecord {u : UnitId} {s : State} {k : DeviceRecord → State}
    {dev' : DeviceRecord → List DeviceRecord} {es : DeviceRecord → List BusEvent}
    (hk : ∀ d, EndsWith s (k d) (dev' d) okResponse (es d)) :
    EndsOnRecord s (withUnit u s k) dev' es s.dev[u.toNat]? := by
  cases hd : s.dev[u.toNat]? with
  | none => exact withUnit_endsWith_errUnit hd
  | some d =>
    rw [withUnit_some hd]
    exact hk d

/-- A read-modify-write as all a command does (R130). -/
theorem done_rmw_endsWith (a : BusAddr) (r : Reg) (clear set : Word16) (s : State) :
    EndsWith s (done (rmw a r clear set s)) s.dev okResponse (rmwCalls a r clear set (s.answerAt 0 0)) :=
  (rmw_calls a r clear set s).endsWith okResponse

/-- Settles O21. -/
theorem readModifyWriteMakesTwoCalls : Obligations.ReadModifyWriteMakesTwoCalls := by
  intro a r clear set s
  refine ⟨rmwWord clear set (s.answerAt 0 0), rmw_trace a r clear set s, rfl, fun k _ hclear hset => ?_,
    rfl, rfl⟩
  simp only [getLsbD_rmwWord, hclear, hset, Bool.not_false, Bool.and_true, Bool.or_false]

/-! ### The commands one by one -/

/-- Settles O22: `SET_MODE` is a read-modify-write, and a registry write that is no call. -/
theorem setModeWritesConfigAndTheCache : Obligations.SetModeWritesConfigAndTheCache := by
  intro u mode s
  refine ⟨(encodedAs_iff _ _ _).mpr ⟨rfl, rfl⟩, _, rfl, ?_⟩
  rw [← modeCache_eq_extractLsb']
  exact withUnit_endsOnRecord fun d =>
    ((rmw_calls d.busAddress .config modeMask (modeOperand mode) s).then_setDev u
      { d with operatingMode := modeCache mode }).endsWith okResponse

/-- Settles O25. -/
theorem setAvgWritesTheAveragingField : Obligations.SetAvgWritesTheAveragingField := fun _ count s =>
  ⟨(encodedAs_iff _ _ _).mpr ⟨rfl, rfl⟩, _, rfl, withUnit_endsOnRecord fun d =>
    done_rmw_endsWith d.busAddress .config avgMask (avgIndex count <<< 9) s⟩

/-- Settles O27: the clamped code is the minimum, and each setter one read-modify-write. -/
theorem conversionTimeSettersClampTheCode : Obligations.ConversionTimeSettersClampTheCode :=
  fun _ code s =>
    ⟨(encodedAs_iff _ _ _).mpr ⟨rfl, rfl⟩, (encodedAs_iff _ _ _).mpr ⟨rfl, rfl⟩,
      clampCode code, toNat_clampCode code,
      ⟨_, rfl, withUnit_endsOnRecord fun d =>
        done_rmw_endsWith d.busAddress .config busCtMask (clampCode code <<< 6) s⟩,
      ⟨_, rfl, withUnit_endsOnRecord fun d =>
        done_rmw_endsWith d.busAddress .config shuntCtMask (clampCode code <<< 3) s⟩⟩

/-- Settles O28: a write and a delay, no read before them. -/
theorem resetWritesTheResetWordAndDelays : Obligations.ResetWritesTheResetWordAndDelays := fun _ s =>
  ⟨(encodedAs_iff _ _ _).mpr ⟨rfl, rfl⟩, _, rfl, withUnit_endsOnRecord fun d =>
    ((regWrite_calls d.busAddress .config resetWord s).trans (delay_calls _)).endsWith okResponse⟩

/-- `SET_ALERT_CNVR` on its record, the bit set or cleared (R150). -/
theorem exec_setAlertCnvr_of_record {u : UnitId} {s : State} {d : DeviceRecord}
    (hd : s.dev[u.toNat]? = some d) (enabled : Bool) :
    ∃ t, exec (.setAlertCnvr u enabled) s = .next t ∧
      EndsWith s t s.dev okResponse
        [.read d.busAddress .maskEn (s.answerAt 0 0),
          .write d.busAddress .maskEn (alertWord s.params enabled (s.answerAt 0 0))] := by
  refine ⟨_, rfl, ?_⟩
  rw [withUnit_some hd]
  cases enabled with
  | false => exact done_rmw_endsWith d.busAddress .maskEn (alertBit s.params) 0x0000 s
  | true => exact done_rmw_endsWith d.busAddress .maskEn 0x0000 (alertBit s.params) s

/-- Settles O33: the word is `alertWord`, whose bits are `getLsbD_alertWord`. -/
theorem setAlertCnvrWritesOneBit : Obligations.SetAlertCnvrWritesOneBit := by
  intro u enabled s
  refine ⟨(encodedAs_iff _ _ _).mpr ⟨rfl, rfl⟩, ?_⟩
  cases hd : s.dev[u.toNat]? with
  | none => exact ⟨_, rfl, withUnit_endsWith_errUnit hd⟩
  | some d =>
    obtain ⟨t, ht, hends⟩ := exec_setAlertCnvr_of_record hd enabled
    exact ⟨t, ht, alertWord s.params enabled (s.answerAt 0 0),
      fun k _ => getLsbD_alertWord s.params enabled _ k, hends⟩

/-! ### The words written, and what is cached -/

/-- A command whose unit names a record makes the calls of `recordCalls`. -/
theorem exists_exec_of_record {i : Instr} {s : State} {d : DeviceRecord} (hd : recordOf i s = some d) :
    ∃ t, exec i s = .next t ∧ newEvents s t = recordCalls i s d := by
  obtain ⟨t, ht, _⟩ := exec_effect i s
  exact ⟨t, ht, (newEvents_exec ht).trans (commandCalls_of_record hd)⟩

/-- The two calls of `SET_MODE` and the cache it leaves (R131). -/
theorem exec_setMode_of_record {u : UnitId} {s : State} {d : DeviceRecord}
    (hd : s.dev[u.toNat]? = some d) (m : Word16) :
    ∃ t, exec (.setMode u m) s = .next t ∧
      newEvents s t = [.read d.busAddress .config s.readAnswer,
        .write d.busAddress .config (modeWord m s.readAnswer)] ∧
      newResponses s t = [okResponse] ∧
      t.dev = s.dev.set u.toNat { d with operatingMode := modeCache m } := by
  obtain ⟨t, ht, hcalls⟩ := exists_exec_of_record (i := .setMode u m) hd
  refine ⟨t, ht, hcalls, ?_, ?_⟩
  · obtain rfl := Host.Outcome.next.inj ht
    rw [withUnit_some hd]
    exact List.drop_left
  · rw [exec_setMode_dev ht, List.modify_eq_set_getElem?, hd]
    rfl

/-- Settles O23: the three ranges of bits of `modeWord`. -/
theorem setModeCanSetBitThreeButNotClearIt : Obligations.SetModeCanSetBitThreeButNotClearIt := by
  refine ⟨fun u mode s t hu h => ?_, by decide⟩
  obtain ⟨d, hd⟩ := exists_record hu
  obtain ⟨t', ht', hcalls, _⟩ := exec_setMode_of_record hd mode
  obtain rfl := Host.Outcome.next.inj (ht'.symm.trans h)
  exact ⟨d.busAddress, s.readAnswer, modeWord mode s.readAnswer, hcalls,
    fun _ hk => getLsbD_modeWord_of_ge hk mode _, getLsbD_modeWord_three mode _,
    fun _ hk => getLsbD_modeWord_of_lt hk mode _⟩

/-- `GET_MODE` answers the cache, without a call (R180). -/
theorem exec_getMode_of_record {u : UnitId} {s : State} {d : DeviceRecord}
    (hd : s.dev[u.toNat]? = some d) :
    ∃ t, exec (.getMode u) s = .next t ∧
      EndsWith s t s.dev (okRes0 (d.operatingMode.setWidth 32)) [] := by
  refine ⟨_, rfl, ?_⟩
  rw [withUnit_some hd]
  exact (MadeCalls.refl s).endsWith _

/-- Settles O24: `GET_MODE` reads the record that `SET_MODE` left. -/
theorem setModeThenGetModeReturnsTheMaskedMode :
    Obligations.SetModeThenGetModeReturnsTheMaskedMode := by
  intro u x s hu
  obtain ⟨d, hd⟩ := exists_record hu
  obtain ⟨t, ht, hcalls, hresp, hdev⟩ := exec_setMode_of_record hd x
  have hcached : t.dev[u.toNat]? = some { d with operatingMode := modeCache x } := by
    rw [hdev, List.getElem?_set_self hu]
  obtain ⟨t', ht', hends⟩ := exec_getMode_of_record hcached
  have hget : newResponses t t' = [okRes0 ((x &&& 0x000F#16).setWidth 32)] := by
    rw [hends.newResponses_eq, setWidth_modeCache]
  refine ⟨t, t', d.busAddress, s.readAnswer, modeWord x s.readAnswer, ht, ht', hcalls, hresp, hget,
    hends.newEvents_eq, fun k hk => getLsbD_modeWord_of_ge hk x _,
    fun hx k hk => getLsbD_modeWord_of_three_clear hx hk _, ?_⟩
  rw [hcached, Option.map_some]
  exact congrArg some (configMode_rmwWord_modeOperand x _).symm

/-! ### The table of R152 -/

/-- The rows of the table that leave the registry alone. -/
theorem exists_exec_keeping_dev {i : Instr} {s : State} {d : DeviceRecord} (hd : recordOf i s = some d)
    (hbegin : ∀ u a ma sh, i ≠ .begin u a ma sh) (hmode : ∀ u m, i ≠ .setMode u m) :
    ∃ t, exec i s = .next t ∧ newEvents s t = recordCalls i s d ∧ t.dev = s.dev := by
  obtain ⟨t, ht, hcalls⟩ := exists_exec_of_record hd
  exact ⟨t, ht, hcalls, exec_dev_kept ht hbegin hmode⟩

/-- The first poll of `WAIT_CONV` is all it does to the bus, ready or not (R147). -/
theorem recordCalls_waitConv (u : UnitId) (s : State) (d : DeviceRecord) :
    recordCalls (.waitConv u) s d = [.read d.busAddress .maskEn s.readAnswer] := by
  rw [recordCalls, pollCalls, afterWaitCalls, ite_self]

/-- The re-trigger writes back what it read (R160). -/
theorem newEvents_retrigger (a : BusAddr) (s : State) :
    newEvents s (retrigger a s) = [.read a .config s.readAnswer, .write a .config s.readAnswer] := by
  rw [retrigger_eq]
  exact List.drop_left

/-- Settles O34, row by row: `modeWord`, `withField` at the three fields, the reset word, one read,
`alertWord`, and the re-trigger. -/
theorem configFieldsMoveAsTabled : Obligations.ConfigFieldsMoveAsTabled := by
  intro u x e s hu
  obtain ⟨d, hd⟩ := exists_record hu
  have havg := toNat_avgIndex_lt x
  have hcode := toNat_clampCode_lt x
  refine ⟨?setMode, ?setAvg, ?setBusCt, ?setShuntCt, ?reset, ?waitConv, ?setAlertCnvr,
    fun a => ?retrigger⟩
  case setMode =>
    obtain ⟨t, ht, hcalls, _, hdev⟩ := exec_setMode_of_record hd x
    exact ⟨t, d.busAddress, _, _, ht, hcalls, extractLsb'_modeWord_above (by decide) x _,
      extractLsb'_modeWord_above (by decide) x _, extractLsb'_modeWord_above (by decide) x _,
      configShuntCt_modeWord x _, configMode_modeWord x _, d, hd, modeCache_eq_extractLsb' x ▸ hdev⟩
  case setAvg =>
    obtain ⟨t, ht, hcalls, hdev⟩ := exists_exec_keeping_dev (i := .setAvg u x) hd nofun nofun
    rw [recordCalls, rmwCalls, rmwWord_avgMask] at hcalls
    exact ⟨t, d.busAddress, _, _, ht, hcalls, extractLsb'_withField_above havg (by decide) _,
      extractLsb'_withField (by decide) _ _, extractLsb'_withField_below (by decide) _ _,
      extractLsb'_withField_below (by decide) _ _, extractLsb'_withField_below (by decide) _ _, hdev⟩
  case setBusCt =>
    obtain ⟨t, ht, hcalls, hdev⟩ := exists_exec_keeping_dev (i := .setBusCt u x) hd nofun nofun
    rw [recordCalls, rmwCalls, rmwWord_busCtMask] at hcalls
    refine ⟨t, d.busAddress, _, _, ht, hcalls, extractLsb'_withField_above hcode (by decide) _,
      extractLsb'_withField_above hcode (by decide) _, ?_, extractLsb'_withField_below (by decide) _ _,
      extractLsb'_withField_below (by decide) _ _, hdev⟩
    rw [configBusCt, extractLsb'_withField (by decide), toNat_setWidth_clampCode]
  case setShuntCt =>
    obtain ⟨t, ht, hcalls, hdev⟩ := exists_exec_keeping_dev (i := .setShuntCt u x) hd nofun nofun
    rw [recordCalls, rmwCalls, rmwWord_shuntCtMask] at hcalls
    refine ⟨t, d.busAddress, _, _, ht, hcalls, extractLsb'_withField_above hcode (by decide) _,
      extractLsb'_withField_above hcode (by decide) _, extractLsb'_withField_above hcode (by decide) _, ?_,
      extractLsb'_withField_below (by decide) _ _, hdev⟩
    rw [configShuntCt, extractLsb'_withField (by decide), toNat_setWidth_clampCode]
  case reset =>
    obtain ⟨t, ht, hcalls, hdev⟩ := exists_exec_keeping_dev (i := .reset u) hd nofun nofun
    exact ⟨t, d.busAddress, resetWord, ht, hcalls, rfl, rfl, rfl, rfl, rfl, hdev⟩
  case waitConv =>
    obtain ⟨t, ht, hcalls, hdev⟩ := exists_exec_keeping_dev (i := .waitConv u) hd nofun nofun
    exact ⟨t, d.busAddress, s.readAnswer, ht, hcalls.trans (recordCalls_waitConv u s d), hdev⟩
  case setAlertCnvr =>
    obtain ⟨t, ht, hends⟩ := exec_setAlertCnvr_of_record hd e
    have hbit := getLsbD_alertWord s.params e (s.answerAt 0 0)
    exact ⟨t, d.busAddress, _, _, ht, hends.newEvents_eq, by rw [hbit, if_pos rfl],
      fun k hk => by rw [hbit, if_neg hk], hends.dev⟩
  case retrigger => exact ⟨⟨s.readAnswer, newEvents_retrigger a s⟩, rfl⟩

/-! ### The device after `RESET` -/

/-- A device reset loses the calibration, whatever was known before (R39). -/
theorem calibHeld_reset (a : BusAddr) (tr : List BusEvent) :
    calibHeld a (tr ++ [.write a .config resetWord, .delay]) = none := by
  have hreset : resetsDevice resetWord = true := by decide
  simp [calibHeld_append, calibAfter, hreset]

/-- A device reset leaves the default configuration (R39). -/
theorem configHeld_reset (p : Config.Params) (a : BusAddr) (tr : List BusEvent) :
    configHeld p a (tr ++ [.write a .config resetWord, .delay]) = some p.configDefault := by
  have hreset : resetsDevice resetWord = true := by decide
  simp [configHeld_append, configAfter, hreset]

/-- Settles O59: the trace ends with the device's reset, and the record is as it was. -/
theorem resetLeavesTheRecordOutOfStep : Obligations.ResetLeavesTheRecordOutOfStep := by
  intro u s t d hvalid hd h
  have htrace : t.trace = s.trace ++ [.write d.busAddress .config resetWord, .delay] :=
    (exec_trace h).trans (congrArg _ (commandCalls_of_record (i := .reset u) hd))
  have hparams : t.params = s.params := exec_params h
  have hcalib : calibHeld d.busAddress t.trace = none := by rw [htrace, calibHeld_reset]
  have hconfig : configHeld t.params d.busAddress t.trace = some t.params.configDefault := by
    rw [htrace, configHeld_reset]
  refine ⟨exec_dev_kept h nofun nofun, hcalib, hconfig, ?_, ?_⟩
  · rw [calibrationInStep, hcalib]
    rfl
  · rw [modeCacheInStep, hconfig, Option.map_some, hparams, configMode_configDefault hvalid, beq_iff_eq,
      Option.some.injEq, eq_comm]

end Sys2Proof.Machine
end

section
/-! The conversion-ready wait (R147 to R149): what one poll does, and what a run of polls does, by
induction on the words the polls answer. -/

namespace Sys2Proof.Machine

/-! ### One poll -/

/-- On a word with the ready bit `WAIT_CONV` ends, after one read (R147). -/
theorem pollOnce_waitConv_endsWith {s : State} (a : BusAddr)
    (hready : conversionReady s.params s.readAnswer = true) :
    EndsWith s (pollOnce a .waitConv s) s.dev okResponse [.read a .maskEn s.readAnswer] := by
  have hpoll : pollOnce a .waitConv s = done (regRead a .maskEn s) := by
    simp only [pollOnce, hready, if_true, afterWait]
  rw [hpoll]
  exact (regRead_calls a .maskEn s).endsWith okResponse

/-- On any other word a command goes on waiting (R148). -/
theorem pollOnce_eq_keepPolling {s : State} (a : BusAddr) (next : AfterWait)
    (hunready : conversionReady s.params s.readAnswer = false) :
    pollOnce a next s = keepPolling a next (regRead a .maskEn s) := by
  simp [pollOnce, hunready]

theorem pollOnce_stillWaits {s : State} (a : BusAddr) (next : AfterWait)
    (hunready : conversionReady s.params s.readAnswer = false) :
    StillWaits s (pollOnce a next s) a next s.readAnswer := by
  rw [pollOnce_eq_keepPolling a next hunready]
  exact stillWaits_keepPolling a next s

/-- Settles O29: the two outcomes of the first poll. -/
theorem waitConvEndsWhenTheReadyBitIsSeen : Obligations.WaitConvEndsWhenTheReadyBitIsSeen := by
  intro u s
  refine ⟨(encodedAs_iff _ _ _).mpr ⟨rfl, rfl⟩, _, rfl, ?_⟩
  cases hd : s.dev[u.toNat]? with
  | none => exact withUnit_endsWith_errUnit hd
  | some d =>
    rw [withUnit_some hd]
    by_cases hready : (s.answerAt 0 0).getLsbD s.params.cvrfBit.val = true
    · simp only [if_pos hready]
      exact pollOnce_waitConv_endsWith d.busAddress hready
    · simp only [if_neg hready]
      exact pollOnce_stillWaits d.busAddress .waitConv (Bool.eq_false_iff.mpr hready)

/-- Settles O32: without reset a step is one poll, which goes on waiting unless its word has the ready bit;
either way of reset zeroes the registry and answers nothing. -/
theorem onlyTheReadyBitOrResetEndsAWait : Obligations.OnlyTheReadyBitOrResetEndsAWait := by
  intro s t a next ha hstep hleft
  have hadv : advance (nextSignal s) = .next (pollOnce a next (nextSignal s)) := by
    simp [advance, ha]
  rcases step_cases s with ⟨_, hs⟩ | ⟨hbefore, hs⟩ | ⟨n, hinside, hs⟩ <;> rw [hs] at hstep
  · obtain rfl := Host.Outcome.next.inj (hadv.symm.trans hstep)
    rcases pollOnce_cases a next (nextSignal s) with ⟨_, hp⟩ | ⟨hready, _⟩
    · exact absurd (by rw [hp, keepPolling_activity]) hleft
    · exact .inr ⟨hready, _, pollOnce_trace a next (nextSignal s)⟩
  · obtain rfl := Host.Outcome.next.inj hstep
    exact .inl ⟨by simp [hbefore], by simp [State.nUnits], rfl⟩
  · rw [hadv] at hstep
    obtain rfl := Host.Outcome.next.inj hstep
    obtain ⟨_, hresp, hdev, _⟩ :=
      abandonAfter_fields n (nextSignal s) (pollOnce a next (nextSignal s))
    exact .inl ⟨by simp [hinside], by simp [hdev, State.nUnits], hresp⟩

/-! ### A run of polls -/

/-- A poll before the rest of the wait. -/
theorem StillWaits.then_endsWith {s s' t : State} {a : BusAddr} {next : AfterWait} {w : Word16}
    {dev' : List DeviceRecord} {r : Response} {es : List BusEvent} (h : StillWaits s s' a next w)
    (h' : EndsWith s' t dev' r es) : EndsWith s t dev' r (.read a .maskEn w :: es) where
  params := h'.params.trans h.params
  dev := h'.dev
  activity := h'.activity
  commands := h'.commands.trans h.commands
  responses := by rw [h'.responses, h.responses]
  trace := by rw [h'.trace, h.trace, List.append_assoc, List.singleton_append]
  reads := by simp [h'.reads, h.reads, readCount, Nat.add_comm]
  probes := by simp [h'.probes, h.probes, probeCount]
  resetLine := h'.resetLine.trans h.resetLine
  noCall := nofun

/-- A first poll and one more step for each unready word end `WAIT_CONV`, whatever state it began in. -/
theorem run_pollOnce_waitConv_endsWith {a : BusAddr} {rest : List Word16} {r : Word16} :
    ∀ (ws : List Word16) (s : State), s.resetLine = [] → s.env.reads = ws ++ r :: rest →
      (∀ w ∈ ws, conversionReady s.params w = false) → conversionReady s.params r = true →
      ∃ t, Host.Core.run core ws.length (pollOnce a .waitConv s) = .next t ∧
        EndsWith s t s.dev okResponse ((ws ++ [r]).map (BusEvent.read a .maskEn)) := by
  intro ws
  induction ws with
  | nil =>
    intro s _ hreads _ hr
    have hanswer : s.readAnswer = r := by simp [State.readAnswer, hreads]
    subst hanswer
    exact ⟨_, rfl, pollOnce_waitConv_endsWith a hr⟩
  | cons w ws ih =>
    intro s hline hreads hws hr
    have hanswer : s.readAnswer = w := by simp [State.readAnswer, hreads]
    have hwaits : StillWaits s (pollOnce a .waitConv s) a .waitConv w :=
      hanswer ▸ pollOnce_stillWaits a .waitConv (hanswer ▸ hws w List.mem_cons_self)
    have hline' := hwaits.resetLine.trans hline
    have hreads' : (pollOnce a .waitConv s).env.reads = ws ++ r :: rest := by
      rw [hwaits.reads, hreads]
      rfl
    obtain ⟨t, hrun, hends⟩ := ih (pollOnce a .waitConv s) hline' hreads'
      (fun w' hw' => hwaits.params ▸ hws w' (List.mem_cons_of_mem w hw')) (hwaits.params ▸ hr)
    refine ⟨t, ?_, hwaits.dev ▸ hwaits.then_endsWith hends⟩
    rw [List.length_cons, run_succ_of_step _ (step_polling hwaits.activity hline')]
    exact hrun

/-- Settles O30: the first poll is the command's own, the others are steps. -/
theorem waitConvEndsAtTheFirstReadyWord : Obligations.WaitConvEndsAtTheFirstReadyWord := by
  intro s u d ws rest r hd hline hreads hws hr
  obtain ⟨t, hrun, hends⟩ := run_pollOnce_waitConv_endsWith (a := d.busAddress) ws s hline hreads hws hr
  exact ⟨pollOnce d.busAddress .waitConv s, t, congrArg Host.Outcome.next (withUnit_some hd _),
    hrun, hends⟩

/-- `n` polls at `a`, each with the answer the environment has for it. -/
def pollReads (a : BusAddr) (n : Nat) (s : State) : List BusEvent :=
  (List.range n).map fun k => .read a .maskEn (s.answerAt k k)

theorem pollReads_succ (a : BusAddr) (next : AfterWait) (n : Nat) (s : State) :
    pollReads a (n + 1) s =
      .read a .maskEn s.readAnswer :: pollReads a n (keepPolling a next (regRead a .maskEn s)) := by
  have hanswer (k : Nat) :
      (keepPolling a next (regRead a .maskEn s)).answerAt k k = s.answerAt (k + 1) (k + 1) :=
    answerAt_regRead a .maskEn s k k
  simp only [pollReads, List.range_succ_eq_map, List.map_cons, List.map_map, hanswer]
  rfl

/-- Polls without the ready bit leave the command where it was, and nothing done but their reads. -/
theorem run_unready_polls {a : BusAddr} {next : AfterWait} :
    ∀ (n : Nat) (s : State), s.activity = .polling a next → s.resetLine = [] →
      (∀ k < n, conversionReady s.params (s.answerAt k k) = false) →
      ∃ t, Host.Core.run core n s = .next t ∧ MadeCalls s t (pollReads a n s) ∧ t.dev = s.dev := by
  intro n
  induction n with
  | zero => exact fun s _ _ _ => ⟨s, rfl, .refl s, rfl⟩
  | succ n ih =>
    intro s ha hline hunready
    have hstep : step s = .next (keepPolling a next (regRead a .maskEn s)) := by
      rw [step_polling ha hline, pollOnce_eq_keepPolling a next (hunready 0 n.succ_pos)]
    have hpoll : MadeCalls s (keepPolling a next (regRead a .maskEn s)) [.read a .maskEn s.readAnswer] :=
      { regRead_calls a .maskEn s with activity := ha.symm }
    obtain ⟨t, hrun, hcalls, hdev⟩ := ih (keepPolling a next (regRead a .maskEn s)) rfl hline
      fun k hk => answerAt_regRead a .maskEn s k k ▸ hunready (k + 1) (Nat.succ_lt_succ hk)
    exact ⟨t, (run_succ_of_step n hstep).trans hrun,
      pollReads_succ a next n s ▸ hpoll.trans hcalls, hdev⟩

/-- Settles O31, from `run_unready_polls`. -/
theorem waitingGoesOnForEverWithoutTheReadyBit : Obligations.WaitingGoesOnForEverWithoutTheReadyBit := by
  intro s a next n ha hline hunready
  obtain ⟨t, hrun, hcalls, hdev⟩ := run_unready_polls n s ha hline hunready
  exact ⟨t, hrun, hcalls.activity.trans ha, hdev, hcalls.responses, hcalls.commands, hcalls.trace⟩

end Sys2Proof.Machine
end

section
/-! The read operations: the two voltage reads as one command over the quantity read, without a wait, with
a wait that ends at its first poll, and over a whole wait; the current and power reads; and each read against
the scaler of its data word. -/

namespace Sys2Proof.Machine

/-! ### The re-trigger test (R159) -/

theorem retriggersBus_iff (m : ModeBits) :
    retriggersBus m = true ↔ m.getLsbD 2 = false ∧ m.getLsbD 1 = true := by
  simp [retriggersBus]

theorem retriggersShunt_iff (m : ModeBits) :
    retriggersShunt m = true ↔ m.getLsbD 2 = false ∧ m.getLsbD 0 = true := by
  simp [retriggersShunt]

/-- The reserved code has bit 2 clear like the triggered modes, and converts nothing (R34). -/
theorem modeName_triggered_and_converts : ∀ code : BitVec 3,
    ((modeName code).isTriggered && (modeName code).convertsBus) =
        (!code.getLsbD 2 && code.getLsbD 1) ∧
      ((modeName code).isTriggered && (modeName code).convertsShunt) =
        (!code.getLsbD 2 && code.getLsbD 0) := by decide

/-- Settles O38: the test looks at bits of the mode code alone. -/
theorem retriggerTestFollowsTheTable : Obligations.RetriggerTestFollowsTheTable := by
  refine ⟨fun m => ?_, by decide, by decide⟩
  obtain ⟨hbus, hshunt⟩ := modeName_triggered_and_converts (m.extractLsb' 0 3)
  have hbit (k : Nat) (hk : k < 3) : (m.extractLsb' 0 3).getLsbD k = m.getLsbD k := by
    simp [hk]
  rw [hbus, hshunt, hbit 0 (by decide), hbit 1 (by decide), hbit 2 (by decide)]
  exact ⟨rfl, rfl⟩

/-! ### The two voltage reads as one -/

/-- The quantity a voltage read is for: all that tells `GET_BUS_MV` (R156) from `GET_SHUNT_UV` (R158). -/
inductive Voltage where
  | bus | shunt

/-- The data register. -/
def Voltage.reg : Voltage → Reg
  | .bus => .busV
  | .shunt => .shuntV

/-- The result for a data word (R115). -/
def Voltage.scale : Voltage → Word16 → Word32
  | .bus, raw => asU32 (scaleBus raw)
  | .shunt, raw => asS32 (scaleShunt raw)

/-- What the wait of the read on unit `u` goes on with; `(v.next u).command wait` is the read itself. -/
def Voltage.next : Voltage → UnitId → AfterWait
  | .bus, u => .getBusMv u
  | .shunt, u => .getShuntUv u

/-- The command that only scales (R117, R119). -/
def Voltage.scaler : Voltage → Word16 → Instr
  | .bus, raw => .scaleBus raw
  | .shunt, raw => .scaleShunt raw

theorem Voltage.exec_scaler_endsWith (v : Voltage) (raw : Word16) (s : State) :
    ∃ t, exec (v.scaler raw) s = .next t ∧ EndsWith s t s.dev (okRes0 (v.scale raw)) [] := by
  cases v with
  | bus => exact exec_scaleBus_endsWith raw s
  | shunt => exact exec_scaleShunt_endsWith raw s

/-- The read, once its unit is looked up. -/
theorem Voltage.exec_command_of_record (v : Voltage) {u : UnitId} {s : State} {d : DeviceRecord}
    (hd : s.dev[u.toNat]? = some d) (wait : Bool) :
    exec ((v.next u).command wait) s =
      .next (if wait then pollOnce d.busAddress (v.next u) s else afterWait d.busAddress (v.next u) s) := by
  cases v with
  | bus | shunt => exact congrArg Host.Outcome.next (withUnit_some hd _)

/-- The data read of `raw`, and where `again` asks for a re-trigger, `CONFIG` read as `c` and written back
(R160). -/
def voltageCalls (a : BusAddr) (r : Reg) (again : Bool) (raw c : Word16) : List BusEvent :=
  .read a r raw :: if again then [.read a .config c, .write a .config c] else []

/-- The re-trigger writes back what it reads (R160). -/
theorem retrigger_calls (a : BusAddr) (s : State) :
    MadeCalls s (retrigger a s) [.read a .config s.readAnswer, .write a .config s.readAnswer] := by
  have hcalls := rmw_calls a .config 0#16 0#16 s
  rwa [rmwWord_zero] at hcalls

/-- The data read and the re-trigger after other calls, and the response. -/
theorem MadeCalls.dataRead_endsWith {s t : State} {es : List BusEvent} (h : MadeCalls s t es)
    (a : BusAddr) (r : Reg) (again : Bool) (x : Word32) :
    EndsWith s (done0 x (if again then retrigger a (regRead a r t) else regRead a r t)) t.dev (okRes0 x)
      (es ++ voltageCalls a r again (t.answerAt 0 0) (t.answerAt 1 1)) := by
  have hread := regRead_calls a r t
  cases again with
  | false => exact (h.trans hread).endsWith _
  | true =>
    have hagain := retrigger_calls a (regRead a r t)
    rw [readAnswer_eq_answerAt, answerAt_regRead] at hagain
    exact (h.trans (hread.trans hagain)).endsWith _

/-- A voltage read after its wait, whatever calls came before. -/
theorem Voltage.afterWait_endsWith (v : Voltage) {u : UnitId} {s t : State} {d : DeviceRecord}
    {es : List BusEvent} (h : MadeCalls s t es) (hd : t.dev[u.toNat]? = some d) (a : BusAddr) :
    EndsWith s (afterWait a (v.next u) t) t.dev (okRes0 (v.scale (t.answerAt 0 0)))
      (es ++ voltageCalls a v.reg ((v.next u).retriggers d.operatingMode) (t.answerAt 0 0)
        (t.answerAt 1 1)) := by
  cases v with
  | bus =>
    rw [Voltage.next, afterWait, finishGetBusMv, withUnit_some hd]
    exact h.dataRead_endsWith a .busV _ _
  | shunt =>
    rw [Voltage.next, afterWait, finishGetShuntUv, withUnit_some hd]
    exact h.dataRead_endsWith a .shuntV _ _

/-- A poll that sees the ready bit, and the voltage read it lets go on. -/
theorem Voltage.pollOnce_endsWith (v : Voltage) {u : UnitId} {s : State} {d : DeviceRecord}
    (hd : s.dev[u.toNat]? = some d) (hready : conversionReady s.params s.readAnswer = true)
    (a : BusAddr) :
    EndsWith s (pollOnce a (v.next u) s) s.dev (okRes0 (v.scale (s.answerAt 1 1)))
      (.read a .maskEn s.readAnswer ::
        voltageCalls a v.reg ((v.next u).retriggers d.operatingMode) (s.answerAt 1 1)
          (s.answerAt 2 2)) := by
  have hpoll : pollOnce a (v.next u) s = afterWait a (v.next u) (regRead a .maskEn s) := by
    simp only [pollOnce, hready, if_true]
  have hends := v.afterWait_endsWith (regRead_calls a .maskEn s) (u := u) hd a
  rw [answerAt_regRead, answerAt_regRead] at hends
  rw [hpoll]
  exact hends

/-! ### A voltage read's own step -/

/-- How many polls a read's own step begins with. -/
def pollCount (wait : Bool) : Nat := if wait then 1 else 0

/-- The first poll, if any. -/
def firstPoll (a : BusAddr) (wait : Bool) (s : State) : List BusEvent :=
  if wait then [.read a .maskEn (s.answerAt 0 0)] else []

/-- The outcomes of a voltage read's own step on its record: still waiting after an unready poll, or
ended. -/
theorem Voltage.exec_command_outcome (v : Voltage) {u : UnitId} {s : State} {d : DeviceRecord}
    (hd : s.dev[u.toNat]? = some d) (wait : Bool) :
    ∃ t, exec ((v.next u).command wait) s = .next t ∧
      if wait = true ∧ conversionReady s.params (s.answerAt 0 0) = false then
        StillWaits s t d.busAddress (v.next u) (s.answerAt 0 0)
      else
        EndsWith s t s.dev (okRes0 (v.scale (s.answerAt (pollCount wait) (pollCount wait))))
          (firstPoll d.busAddress wait s ++
            voltageCalls d.busAddress v.reg ((v.next u).retriggers d.operatingMode)
              (s.answerAt (pollCount wait) (pollCount wait))
              (s.answerAt (pollCount wait + 1) (pollCount wait + 1))) := by
  refine ⟨_, v.exec_command_of_record hd wait, ?_⟩
  cases wait with
  | false => exact v.afterWait_endsWith (.refl s) hd d.busAddress
  | true =>
    cases hready : conversionReady s.params (s.answerAt 0 0) with
    | false => exact pollOnce_stillWaits d.busAddress (v.next u) hready
    | true => exact v.pollOnce_endsWith hd hready d.busAddress

/-- Settles O35: `exec_command_outcome` for the bus voltage, the re-trigger test written out. -/
theorem getBusMvReadsScalesAndRetriggers : Obligations.GetBusMvReadsScalesAndRetriggers := by
  intro u wait s
  refine ⟨(encodedAs_iff _ _ _).mpr ⟨rfl, rfl⟩, ?_⟩
  cases hd : s.dev[u.toNat]? with
  | none => exact ⟨_, rfl, withUnit_endsWith_errUnit hd⟩
  | some d =>
    simp only [List.append_assoc, ← retriggersBus_iff]
    exact Voltage.bus.exec_command_outcome hd wait

/-- Settles O36: `exec_command_outcome` for the shunt voltage, the re-trigger test written out. -/
theorem getShuntUvReadsScalesAndRetriggers : Obligations.GetShuntUvReadsScalesAndRetriggers := by
  intro u wait s
  refine ⟨(encodedAs_iff _ _ _).mpr ⟨rfl, rfl⟩, ?_⟩
  cases hd : s.dev[u.toNat]? with
  | none => exact ⟨_, rfl, withUnit_endsWith_errUnit hd⟩
  | some d =>
    simp only [List.append_assoc, ← retriggersShunt_iff]
    exact Voltage.shunt.exec_command_outcome hd wait

/-! ### A voltage read over its whole wait -/

/-- After an unready poll the next step polls again (R148). -/
theorem run_succ_pollOnce {s : State} {a : BusAddr} {next : AfterWait} (n : Nat) (hline : s.resetLine = [])
    (hunready : conversionReady s.params s.readAnswer = false) :
    Host.Core.run core (n + 1) (pollOnce a next s) =
      Host.Core.run core n (pollOnce a next (keepPolling a next (regRead a .maskEn s))) :=
  (congrArg (Host.Core.run core (n + 1)) (pollOnce_eq_keepPolling a next hunready)).trans
    (run_succ_of_step n (step_polling rfl hline))

/-- `n` unready polls, the first of them the command's own, and then a ready one: the read ends there as it
does without waiting. The answers may be supplied or free. -/
theorem Voltage.run_pollOnce_endsWith (v : Voltage) {u : UnitId} {d : DeviceRecord} {a : BusAddr} :
    ∀ (n : Nat) (s : State), s.dev[u.toNat]? = some d → s.resetLine = [] →
      (∀ k < n, conversionReady s.params (s.answerAt k k) = false) →
      conversionReady s.params (s.answerAt n n) = true →
      ∃ t, Host.Core.run core n (pollOnce a (v.next u) s) = .next t ∧
        EndsWith s t s.dev (okRes0 (v.scale (s.answerAt (n + 1) (n + 1))))
          (pollReads a (n + 1) s ++
            voltageCalls a v.reg ((v.next u).retriggers d.operatingMode) (s.answerAt (n + 1) (n + 1))
              (s.answerAt (n + 2) (n + 2))) := by
  intro n
  induction n with
  | zero => exact fun s hd _ _ hready => ⟨_, rfl, v.pollOnce_endsWith hd hready a⟩
  | succ n ih =>
    intro s hd hline hunready hready
    have hanswer (k : Nat) :
        (keepPolling a (v.next u) (regRead a .maskEn s)).answerAt k k = s.answerAt (k + 1) (k + 1) :=
      answerAt_regRead a .maskEn s k k
    obtain ⟨t, hrun, hends⟩ := ih (keepPolling a (v.next u) (regRead a .maskEn s)) hd hline
      (fun k hk => hanswer k ▸ hunready (k + 1) (Nat.succ_lt_succ hk)) (hanswer n ▸ hready)
    refine ⟨t, (run_succ_pollOnce n hline (hunready 0 n.succ_pos)).trans hrun, ?_⟩
    rw [hanswer, hanswer] at hends
    rw [pollReads_succ a (v.next u)]
    exact (stillWaits_keepPolling a (v.next u) s).then_endsWith hends

/-- An answer that was supplied. -/
theorem answerAt_of_reads {s : State} {ws rest : List Word16} (h : s.env.reads = ws ++ rest) {k : Nat}
    (hk : k < ws.length) (n : Nat) : s.answerAt k n = ws[k] := by
  rw [State.answerAt, h, List.headD_eq_head?_getD, List.head?_drop, List.getElem?_append_left hk,
    List.getElem?_eq_getElem hk, Option.getD_some]

theorem pollReads_eq_map {s : State} {ws rest : List Word16} (h : s.env.reads = ws ++ rest)
    (a : BusAddr) : pollReads a ws.length s = ws.map (BusEvent.read a .maskEn) := by
  refine List.ext_getElem (by simp [pollReads]) fun k _ hk => ?_
  simp [pollReads, answerAt_of_reads h (List.length_map _ ▸ hk)]

/-- A voltage read with the wait flag, when the environment supplies unready words and then a ready one. -/
theorem Voltage.exec_wait_run_endsWith (v : Voltage) {s : State} {u : UnitId} {d : DeviceRecord}
    {ws rest : List Word16} {r : Word16} (hd : s.dev[u.toNat]? = some d) (hline : s.resetLine = [])
    (hreads : s.env.reads = ws ++ r :: rest) (hws : ∀ w ∈ ws, conversionReady s.params w = false)
    (hr : conversionReady s.params r = true) :
    ∃ t0 t, exec ((v.next u).command true) s = .next t0 ∧ Host.Core.run core ws.length t0 = .next t ∧
      EndsWith s t s.dev (okRes0 (v.scale (s.answerAt (ws.length + 1) (ws.length + 1))))
        ((ws ++ [r]).map (BusEvent.read d.busAddress .maskEn) ++
          voltageCalls d.busAddress v.reg ((v.next u).retriggers d.operatingMode)
            (s.answerAt (ws.length + 1) (ws.length + 1)) (s.answerAt (ws.length + 2) (ws.length + 2))) := by
  have hreads' : s.env.reads = (ws ++ [r]) ++ rest := by rw [hreads, List.append_assoc, List.singleton_append]
  have hunready (k : Nat) (hk : k < ws.length) : conversionReady s.params (s.answerAt k k) = false := by
    rw [answerAt_of_reads hreads hk]
    exact hws _ (List.getElem_mem hk)
  have hready : conversionReady s.params (s.answerAt ws.length ws.length) = true := by
    rwa [answerAt_of_reads hreads' (by simp), List.getElem_concat_length rfl]
  obtain ⟨t, hrun, hends⟩ :=
    v.run_pollOnce_endsWith (a := d.busAddress) ws.length s hd hline hunready hready
  have hpolls := pollReads_eq_map hreads' d.busAddress
  rw [List.length_append, List.length_singleton] at hpolls
  exact ⟨_, t, v.exec_command_of_record hd true, hrun, hpolls ▸ hends⟩

/-- Settles O37: the two voltages. -/
theorem waitingReadsFinishAfterTheReadyWord : Obligations.WaitingReadsFinishAfterTheReadyWord :=
  fun _ _ _ _ _ _ hd hline hreads hws hr =>
    ⟨Voltage.bus.exec_wait_run_endsWith hd hline hreads hws hr,
      Voltage.shunt.exec_wait_run_endsWith hd hline hreads hws hr⟩

/-! ### Current and power -/

theorem exec_getCurUa_of_record {u : UnitId} {s : State} {d : DeviceRecord}
    (hd : s.dev[u.toNat]? = some d) :
    ∃ t, exec (.getCurUa u) s = .next t ∧
      EndsWith s t s.dev (okRes0 (asS32 (scaleCur s.readAnswer d.currentLsb)))
        [.read d.busAddress .current s.readAnswer] :=
  ⟨_, congrArg Host.Outcome.next (withUnit_some hd _), (regRead_calls d.busAddress .current s).endsWith _⟩

theorem exec_getPwrUw_of_record {u : UnitId} {s : State} {d : DeviceRecord}
    (hd : s.dev[u.toNat]? = some d) :
    ∃ t, exec (.getPwrUw u) s = .next t ∧
      EndsWith s t s.dev (okRes0 (asU32 (scalePwr s.readAnswer d.powerLsb)))
        [.read d.busAddress .power s.readAnswer] :=
  ⟨_, congrArg Host.Outcome.next (withUnit_some hd _), (regRead_calls d.busAddress .power s).endsWith _⟩

/-- Settles O39. -/
theorem currentAndPowerReadsScaleOneWord : Obligations.CurrentAndPowerReadsScaleOneWord := by
  intro u s
  refine ⟨(encodedAs_iff _ _ _).mpr ⟨rfl, rfl⟩, (encodedAs_iff _ _ _).mpr ⟨rfl, rfl⟩, ?_⟩
  cases hd : s.dev[u.toNat]? with
  | none => exact ⟨⟨_, rfl, withUnit_endsWith_errUnit hd⟩, _, rfl, withUnit_endsWith_errUnit hd⟩
  | some d => exact ⟨exec_getCurUa_of_record hd, exec_getPwrUw_of_record hd⟩

/-! ### The reads against the scalers (R166) -/

theorem unitResponse_of_record {u : UnitId} {s : State} {d : DeviceRecord}
    (hd : s.dev[u.toNat]? = some d) (r : DeviceRecord → Response) : unitResponse u s r = r d := by
  rw [unitResponse, hd]

/-- `t` is where a command ended that answered what the command `i` answers. -/
def AnswersAs (i : Instr) (s t : State) : Prop :=
  ∃ t', exec i s = .next t' ∧ newResponses s t = newResponses s t'

/-- Two commands that end with the same response. -/
theorem EndsWith.answersAs {i : Instr} {s t : State} {dev dev' : List DeviceRecord} {r : Response}
    {es es' : List BusEvent} (h : EndsWith s t dev r es)
    (hi : ∃ t', exec i s = .next t' ∧ EndsWith s t' dev' r es') : AnswersAs i s t := by
  obtain ⟨t', ht', hends⟩ := hi
  exact ⟨t', ht', h.newResponses_eq.trans hends.newResponses_eq.symm⟩

/-- A voltage read that ends in its own step answers what its scaler does on the data word. -/
theorem Voltage.exec_command_answersAs (v : Voltage) {u : UnitId} {s t : State} {d : DeviceRecord}
    (hd : s.dev[u.toNat]? = some d) {wait : Bool} (h : exec ((v.next u).command wait) s = .next t)
    (hidle : wait = true → t.activity = .idle) :
    ∃ w es, newEvents s t = firstPoll d.busAddress wait s ++ .read d.busAddress v.reg w :: es ∧
      AnswersAs (v.scaler w) s t := by
  obtain ⟨t', ht', hout⟩ := v.exec_command_outcome hd wait
  obtain rfl := Host.Outcome.next.inj (ht'.symm.trans h)
  split at hout
  next hwaits =>
    obtain ⟨hwait, _⟩ := hwaits
    exact absurd (hout.activity.symm.trans (hidle hwait)) nofun
  next => exact ⟨_, _, hout.newEvents_eq, hout.answersAs (v.exec_scaler_endsWith _ s)⟩

/-- Settles O40. -/
theorem readsReturnWhatTheScalersReturn : Obligations.ReadsReturnWhatTheScalersReturn := by
  intro u s t hu
  obtain ⟨d, hd⟩ := exists_record hu
  refine ⟨?bus, ?shunt, ?busWaits, ?shuntWaits, ?current, ?power⟩
  case bus =>
    intro h
    obtain ⟨w, es, hcalls, t', hrest⟩ := Voltage.bus.exec_command_answersAs hd (wait := false) h nofun
    exact ⟨d.busAddress, w, es, t', hcalls, hrest⟩
  case shunt =>
    intro h
    obtain ⟨w, es, hcalls, t', hrest⟩ := Voltage.shunt.exec_command_answersAs hd (wait := false) h nofun
    exact ⟨d.busAddress, w, es, t', hcalls, hrest⟩
  case busWaits =>
    intro h hidle
    obtain ⟨w, es, hcalls, t', hrest⟩ :=
      Voltage.bus.exec_command_answersAs hd (wait := true) h fun _ => hidle
    exact ⟨d.busAddress, _, w, es, t', hcalls, hrest⟩
  case shuntWaits =>
    intro h hidle
    obtain ⟨w, es, hcalls, t', hrest⟩ :=
      Voltage.shunt.exec_command_answersAs hd (wait := true) h fun _ => hidle
    exact ⟨d.busAddress, _, w, es, t', hcalls, hrest⟩
  case current =>
    intro h
    obtain ⟨t', ht', hends⟩ := exec_getCurUa_of_record hd
    obtain rfl := Host.Outcome.next.inj (ht'.symm.trans h)
    obtain ⟨t'', hscaler⟩ := hends.answersAs
      (unitResponse_of_record hd _ ▸ exec_scaleCur_endsWith u s.readAnswer s)
    exact ⟨d.busAddress, s.readAnswer, t'', hends.newEvents_eq, hscaler⟩
  case power =>
    intro h
    obtain ⟨t', ht', hends⟩ := exec_getPwrUw_of_record hd
    obtain rfl := Host.Outcome.next.inj (ht'.symm.trans h)
    obtain ⟨t'', hscaler⟩ := hends.answersAs
      (unitResponse_of_record hd _ ▸ exec_scalePwr_endsWith u s.readAnswer s)
    exact ⟨d.busAddress, s.readAnswer, t'', hends.newEvents_eq, hscaler⟩

end Sys2Proof.Machine
end

section
/-! Setup and the accessors: the paths of `BEGIN` after its two fault tests, each with its calls and the
registry it leaves, and what a `BEGIN` that succeeds stores; and the five accessors. -/

namespace Sys2Proof.Machine

/-! ### The paths of `BEGIN` (R171) -/

/-- `BEGIN` past its two fault tests. -/
theorem exec_begin_of_derived {u : UnitId} {ma : Word16} {sh : Word32} {s : State} {d : DeviceRecord}
    {c : Coefficients} (hd : s.dev[u.toNat]? = some d) (hc : deriveCoefficients ma sh = some c)
    (addr : BusAddr) : exec (.begin u addr ma sh) s = .next (probeAndPopulate u addr c s) := by
  rw [exec, execBegin, withUnit_some hd, hc]

/-- Path P1: the probe is not acknowledged. -/
theorem probeAndPopulate_endsWith_of_noAck {s : State} (hack : s.probeAnswer = false) (u : UnitId)
    (addr : BusAddr) (c : Coefficients) :
    EndsWith s (probeAndPopulate u addr c s) s.dev okResponse [.probe addr false] := by
  rw [probeAndPopulate_noAck u addr c hack, ← hack]
  exact (probe_calls addr s).endsWith okResponse

/-- Where an acknowledged `BEGIN` stands before it verifies: the probe, the reset write and the delay are
made. -/
def resetDevice (addr : BusAddr) (s : State) : State :=
  delay (regWrite addr .config resetWord (probe addr s))

theorem probeAndPopulate_of_ack {s : State} (hack : s.probeAnswer = true) (u : UnitId) (addr : BusAddr)
    (c : Coefficients) :
    probeAndPopulate u addr c s = verifyAndPopulate u addr c (resetDevice addr s) := by
  rw [probeAndPopulate, hack, if_pos rfl, resetDevice]

@[simp] theorem resetDevice_params (addr : BusAddr) (s : State) :
    (resetDevice addr s).params = s.params := rfl

/-- The word `BEGIN` verifies is the answer to its first read, its third transaction. -/
theorem readAnswer_resetDevice (addr : BusAddr) (s : State) :
    (resetDevice addr s).readAnswer = s.answerAt 0 2 := by
  simp [resetDevice, State.readAnswer, State.answerAt]

/-- The calls that both outcomes of the verification share. -/
def verificationCalls (addr : BusAddr) (s : State) : List BusEvent :=
  [.probe addr true, .write addr .config resetWord, .delay, .read addr .config (s.answerAt 0 2)]

theorem verification_calls {s : State} (hack : s.probeAnswer = true) (addr : BusAddr) :
    MadeCalls s (regRead addr .config (resetDevice addr s)) (verificationCalls addr s) := by
  have probed := probe_calls addr s
  have reset := (probed.trans (regWrite_calls addr .config resetWord _)).trans (delay_calls _)
  have read := reset.trans (regRead_calls addr .config (resetDevice addr s))
  rw [hack, readAnswer_resetDevice] at read
  exact read

/-- Path P2: the word read is not the default one. -/
theorem probeAndPopulate_endsWith_of_ne_default {s : State} (hack : s.probeAnswer = true)
    (hdef : s.answerAt 0 2 ≠ s.params.configDefault) (u : UnitId) (addr : BusAddr) (c : Coefficients) :
    EndsWith s (probeAndPopulate u addr c s) s.dev okResponse (verificationCalls addr s) := by
  rw [probeAndPopulate_of_ack hack, verifyAndPopulate, readAnswer_resetDevice, resetDevice_params,
    if_neg hdef]
  exact (verification_calls hack addr).endsWith okResponse

/-- Path P3: the record is populated, and then `CALIB` is written. -/
theorem probeAndPopulate_endsWith_of_default {s : State} (hack : s.probeAnswer = true)
    (hdef : s.answerAt 0 2 = s.params.configDefault) (u : UnitId) (addr : BusAddr) (c : Coefficients) :
    EndsWith s (probeAndPopulate u addr c s) (s.dev.set u.toNat (populatedRecord addr c)) okResponse
      (verificationCalls addr s ++ [.write addr .calib c.cal]) := by
  have stored := (verification_calls hack addr).then_setDev u (populatedRecord addr c)
  rw [probeAndPopulate_of_ack hack, verifyAndPopulate, readAnswer_resetDevice, resetDevice_params,
    if_pos hdef]
  exact (stored.trans (regWrite_calls addr .calib c.cal _)).endsWith okResponse

/-- The record a `BEGIN` that writes `CALIB` leaves, and the word it writes, are those of `Derive` on its
operands (R173 b). -/
theorem exec_begin_record_of_calib_write {u : UnitId} {addr a : BusAddr} {ma : Word16} {sh : Word32}
    {s t : State} {v : Word16} (h : exec (.begin u addr ma sh) s = .next t)
    (hw : BusEvent.write a .calib v ∈ newEvents s t) :
    ∃ c, deriveCoefficients ma sh = some c ∧ t.dev[u.toNat]? = some (populatedRecord addr c) ∧
      v = c.cal := by
  rw [newEvents_exec h] at hw
  obtain ⟨d, hd, hmem⟩ := exists_record_of_mem_commandCalls hw
  obtain ⟨c, hc, hcall⟩ := exists_of_mem_recordCalls_begin hmem
  obtain ⟨hack, hdef, hcalls⟩ := beginCalls_of_calib_write hcall
  have hrecord : s.dev[u.toNat]? = some d := (recordOf_eq rfl).symm.trans hd
  obtain rfl := Host.Outcome.next.inj ((exec_begin_of_derived hrecord hc addr).symm.trans h)
  refine ⟨c, hc, ?_, calib_write_mem_successCalls (hcalls ▸ hcall)⟩
  rw [(probeAndPopulate_endsWith_of_default hack hdef u addr c).dev,
    List.getElem?_set_self (lt_nUnits_of_getElem? hrecord)]

/-- Settles O42: the two runs store the record of one `Derive`, for it depends on the operands alone. -/
theorem successfulBeginLeavesARecordOfItsOperands :
    Obligations.SuccessfulBeginLeavesARecordOfItsOperands := by
  intro u addr ma sh s1 s2 t1 t2 a1 a2 v1 v2 h1 h2 hw1 hw2
  obtain ⟨c, hc, hrecord1, rfl⟩ := exec_begin_record_of_calib_write h1 hw1
  obtain ⟨c', hc', hrecord2, rfl⟩ := exec_begin_record_of_calib_write h2 hw2
  obtain rfl : c = c' := Option.some.inj (hc.symm.trans hc')
  rw [hrecord1, hrecord2]
  exact ⟨rfl, rfl, rfl, rfl⟩

/-- Settles O41: the two faults of `exec_begin_cases`, and then the three paths. -/
theorem beginTakesItsFourOutcomes : Obligations.BeginTakesItsFourOutcomes := by
  intro u addr ma sh s
  refine ⟨(encodedAs_iff _ _ _).mpr ⟨rfl, rfl⟩, ?_⟩
  simp only [clsbOf_fold, divisorOf_fold, quotientOf_fold, plsbOf_fold]
  rcases exec_begin_cases u addr ma sh s with ⟨hu, h⟩ | ⟨hu, hdiv, h⟩ | ⟨c, hu, hc, h⟩ <;>
    refine ⟨_, h, ?_⟩
  · rw [if_pos hu]
    exact (MadeCalls.refl s).endsWith _
  · rw [if_neg (Nat.not_le.mpr hu), if_pos hdiv]
    exact (MadeCalls.refl s).endsWith _
  · obtain ⟨hdiv, rfl⟩ := (deriveCoefficients_eq_some_iff ma sh c).mp hc
    rw [if_neg (Nat.not_le.mpr hu), if_neg hdiv]
    split
    next hack => exact probeAndPopulate_endsWith_of_noAck hack u addr _
    next hack =>
      have hack : s.probeAnswer = true := Bool.eq_true_of_not_eq_false hack
      split
      next hdef => exact probeAndPopulate_endsWith_of_ne_default hack hdef u addr _
      next hdef => exact probeAndPopulate_endsWith_of_default hack (not_not.mp hdef) u addr _

/-! ### The accessors (R176 to R180) -/

/-- A command of format U that only looks up its record and answers `r` of it. -/
theorem accessor_endsWith_unitResponse {i : Instr} {op : BitVec 5} {u : UnitId} {s : State}
    {r : DeviceRecord → Response} (hop : i.fields.op = op) (hformat : formatOf op = some .u)
    (hexec : exec i s = .next (withUnit u s fun d => respond (r d) s)) :
    encodedAs i op .u ∧ ∃ t, exec i s = .next t ∧ EndsWith s t s.dev (unitResponse u s r) [] :=
  ⟨(encodedAs_iff i op .u).mpr ⟨hop, hformat⟩, exec_endsWith_unitResponse hexec⟩

/-- Settles O43: by its definition each accessor is a lookup and a response. -/
theorem accessorsReturnTheirFields : Obligations.AccessorsReturnTheirFields := by
  intro u s
  refine ⟨?addr, ?cal, ?clsb, ?plsb, ?mode⟩
  case addr => exact accessor_endsWith_unitResponse (i := .getAddr u) rfl rfl rfl
  case cal => exact accessor_endsWith_unitResponse (i := .getCal u) rfl rfl rfl
  case clsb => exact accessor_endsWith_unitResponse (i := .getClsb u) rfl rfl rfl
  case plsb => exact accessor_endsWith_unitResponse (i := .getPlsb u) rfl rfl rfl
  case mode => exact accessor_endsWith_unitResponse (i := .getMode u) rfl rfl rfl

end Sys2Proof.Machine
end

section
/-! How a command ends (R190 to R195): the two fault tests in the order the block makes them, then a response
`OK` or a wait; said once for all commands, with what the statements about exceptions draw from it. -/

namespace Sys2Proof.Machine

/-! ### The two fault tests (R191, R192) -/

theorem unitFault_eq_true_iff (i : Instr) (s : State) :
    unitFault i s = true ↔ ∃ u, unitOf i = some u ∧ s.nUnits ≤ u.toNat := by
  cases hu : unitOf i <;> simp [unitFault, hu]

theorem unitFault_of_le {i : Instr} {u : UnitId} {s : State} (hi : unitOf i = some u)
    (hu : s.nUnits ≤ u.toNat) : unitFault i s = true :=
  (unitFault_eq_true_iff i s).mpr ⟨u, hi, hu⟩

theorem unitFault_of_lt {i : Instr} {u : UnitId} {s : State} (hi : unitOf i = some u)
    (hu : u.toNat < s.nUnits) : unitFault i s = false := by
  simp [unitFault, hi, hu]

theorem divFault_derive (ma : Word16) (sh : Word32) :
    divFault (.derive ma sh) = (divisorOf ma sh == 0) := rfl

theorem divFault_begin (u : UnitId) (addr : BusAddr) (ma : Word16) (sh : Word32) :
    divFault (.begin u addr ma sh) = (divisorOf ma sh == 0) := rfl

theorem divisor_ne_zero_of_derived {ma : Word16} {sh : Word32} {c : Coefficients}
    (hc : deriveCoefficients ma sh = some c) : (divisorOf ma sh == 0) = false :=
  beq_false_of_ne ((deriveCoefficients_eq_some_iff ma sh c).mp hc).1

/-! ### The outcomes of a command -/

/-- A command without a fault stands in `t`: it has answered `OK`, or it is one that can hang and its first
poll saw no ready bit (R193, R199). -/
inductive Served (i : Instr) (s t : State) : Prop
  | answered {dev' : List DeviceRecord} {r : Response} {es : List BusEvent}
      (h : EndsWith s t dev' r es) (hok : r.status = .ok)
  | waiting {a : BusAddr} {next : AfterWait} {w : Word16} (hhang : canHang i = true)
      (h : StillWaits s t a next w)

/-- Everything a command can come to: a fault on its cause, the unit tested first and nothing done before
(R191, R192, R194), or else what `Served` says. -/
inductive CommandOutcome (i : Instr) (s t : State) : Prop
  | errUnit (hunit : unitFault i s = true) (h : t = raise .errUnit s)
  | errDiv0 (hunit : unitFault i s = false) (hdiv : divFault i = true) (h : t = raise .errDiv0 s)
  | served (hunit : unitFault i s = false) (hdiv : divFault i = false) (h : Served i s t)

theorem MadeCalls.served {i : Instr} {s t : State} {es : List BusEvent} (h : MadeCalls s t es)
    {r : Response} (hok : r.status = .ok) : Served i s (respond r t) :=
  .answered (h.endsWith r) hok

/-- A command without a call that answers `OK`. -/
theorem Served.of_respond {i : Instr} {s : State} {r : Response} (hok : r.status = .ok) :
    Served i s (respond r s) :=
  (MadeCalls.refl s).served hok

/-- A first poll, where the command ends with `OK` once it sees the ready bit (R147). -/
theorem Served.of_pollOnce {i : Instr} {s : State} {a : BusAddr} {next : AfterWait}
    (hhang : canHang i = true)
    (hready : conversionReady s.params s.readAnswer = true → Served i s (pollOnce a next s)) :
    Served i s (pollOnce a next s) := by
  cases h : conversionReady s.params s.readAnswer with
  | true => exact hready h
  | false => exact .waiting hhang (pollOnce_stillWaits a next h)

/-- The two voltage reads, past the lookup of their unit (R156, R158). -/
theorem Voltage.served (v : Voltage) {i : Instr} {u : UnitId} {s : State} {d : DeviceRecord}
    (hd : s.dev[u.toNat]? = some d) {wait : Bool} (hhang : canHang i = wait) :
    Served i s
      (if wait then pollOnce d.busAddress (v.next u) s else afterWait d.busAddress (v.next u) s) := by
  cases wait with
  | false => exact .answered (v.afterWait_endsWith (.refl s) hd d.busAddress) rfl
  | true =>
    exact .of_pollOnce hhang fun hready => .answered (v.pollOnce_endsWith hd hready d.busAddress) rfl

/-- `BEGIN` past its two fault tests answers `OK` on each of its paths (R171). -/
theorem probeAndPopulate_served {i : Instr} (u : UnitId) (addr : BusAddr) (c : Coefficients) (s : State) :
    Served i s (probeAndPopulate u addr c s) := by
  cases hack : s.probeAnswer with
  | false => exact .answered (probeAndPopulate_endsWith_of_noAck hack u addr c) rfl
  | true =>
    by_cases hdef : s.answerAt 0 2 = s.params.configDefault
    · exact .answered (probeAndPopulate_endsWith_of_default hack hdef u addr c) rfl
    · exact .answered (probeAndPopulate_endsWith_of_ne_default hack hdef u addr c) rfl

/-- A command that first looks up its unit, and divides by nothing. -/
theorem CommandOutcome.of_withUnit {i : Instr} {u : UnitId} {s : State} {k : DeviceRecord → State}
    (hi : unitOf i = some u) (hdiv : divFault i = false)
    (hk : ∀ d, s.dev[u.toNat]? = some d → Served i s (k d)) :
    CommandOutcome i s (withUnit u s k) := by
  rcases withUnit_cases u s k with ⟨d, hd, hw⟩ | ⟨hu, _, hw⟩ <;> rw [hw]
  · exact .served (unitFault_of_lt hi (lt_nUnits_of_getElem? hd)) hdiv (hk d hd)
  · exact .errUnit (unitFault_of_le hi hu) rfl

theorem begin_outcome (u : UnitId) (addr : BusAddr) (ma : Word16) (sh : Word32) (s : State) :
    ∃ t, exec (.begin u addr ma sh) s = .next t ∧ CommandOutcome (.begin u addr ma sh) s t := by
  rcases exec_begin_cases u addr ma sh s with ⟨hu, h⟩ | ⟨hu, hdiv, h⟩ | ⟨c, hu, hc, h⟩ <;>
    refine ⟨_, h, ?_⟩
  · exact .errUnit (unitFault_of_le rfl hu) rfl
  · exact .errDiv0 (unitFault_of_lt rfl hu) ((divFault_begin u addr ma sh).trans (beq_iff_eq.mpr hdiv)) rfl
  · exact .served (unitFault_of_lt rfl hu)
      ((divFault_begin u addr ma sh).trans (divisor_ne_zero_of_derived hc))
      (probeAndPopulate_served u addr c s)

theorem derive_outcome (ma : Word16) (sh : Word32) (s : State) :
    ∃ t, exec (.derive ma sh) s = .next t ∧ CommandOutcome (.derive ma sh) s t := by
  rcases exec_derive_cases ma sh s with ⟨hdiv, h⟩ | ⟨c, hc, h⟩ <;> refine ⟨_, h, ?_⟩
  · exact .errDiv0 rfl ((divFault_derive ma sh).trans (beq_iff_eq.mpr hdiv)) rfl
  · exact .served rfl ((divFault_derive ma sh).trans (divisor_ne_zero_of_derived hc)) (.of_respond rfl)

/-- Every command comes to one of the outcomes of `CommandOutcome`. -/
theorem exec_outcome (i : Instr) (s : State) : ∃ t, exec i s = .next t ∧ CommandOutcome i s t := by
  cases i with
  | begin u addr ma sh => exact begin_outcome u addr ma sh s
  | derive ma sh => exact derive_outcome ma sh s
  | scaleBus _ | scaleShunt _ => exact ⟨_, rfl, .served rfl rfl (.of_respond rfl)⟩
  | setMode u _ =>
    exact ⟨_, rfl, .of_withUnit rfl rfl fun _ _ => ((rmw_calls _ _ _ _ s).then_setDev u _).served rfl⟩
  | setAvg _ _ | setBusCt _ _ | setShuntCt _ _ =>
    exact ⟨_, rfl, .of_withUnit rfl rfl fun _ _ => (rmw_calls _ _ _ _ s).served rfl⟩
  | reset _ =>
    exact ⟨_, rfl, .of_withUnit rfl rfl fun _ _ =>
      ((regWrite_calls _ _ _ s).trans (delay_calls _)).served rfl⟩
  | waitConv _ =>
    exact ⟨_, rfl, .of_withUnit rfl rfl fun d _ => .of_pollOnce rfl fun hready =>
      .answered (pollOnce_waitConv_endsWith d.busAddress hready) rfl⟩
  | setAlertCnvr _ enabled =>
    cases enabled <;>
      exact ⟨_, rfl, .of_withUnit rfl rfl fun _ _ => (rmw_calls _ _ _ _ s).served rfl⟩
  | getBusMv _ _ => exact ⟨_, rfl, .of_withUnit rfl rfl fun _ hd => Voltage.bus.served hd rfl⟩
  | getShuntUv _ _ => exact ⟨_, rfl, .of_withUnit rfl rfl fun _ hd => Voltage.shunt.served hd rfl⟩
  | getCurUa _ | getPwrUw _ =>
    exact ⟨_, rfl, .of_withUnit rfl rfl fun _ _ => (regRead_calls _ _ s).served rfl⟩
  | scaleCur _ _ | scalePwr _ _ | getAddr _ | getCal _ | getClsb _ | getPlsb _ | getMode _ =>
    exact ⟨_, rfl, .of_withUnit rfl rfl fun _ _ => .of_respond rfl⟩

theorem CommandOutcome.of_exec {i : Instr} {s t : State} (h : exec i s = .next t) :
    CommandOutcome i s t := by
  obtain ⟨t', ht', outcome⟩ := exec_outcome i s
  obtain rfl := Host.Outcome.next.inj (ht'.symm.trans h)
  exact outcome

/-! ### The responses of each outcome -/

theorem raise_endsWith (e : Status) (s : State) : EndsWith s (raise e s) s.dev (faultResponse e) [] :=
  (MadeCalls.refl s).endsWith _

theorem newResponses_raise (e : Status) (s : State) : newResponses s (raise e s) = [faultResponse e] :=
  (raise_endsWith e s).newResponses_eq

theorem StillWaits.newResponses_eq {s t : State} {a : BusAddr} {next : AfterWait} {w : Word16}
    (h : StillWaits s t a next w) : newResponses s t = [] := by
  rw [newResponses, h.responses, List.drop_length]

/-- A command that is served gives no response but `OK`. -/
theorem Served.status_of_mem {i : Instr} {s t : State} (h : Served i s t) {r : Response}
    (hr : r ∈ newResponses s t) : r.status = .ok := by
  cases h with
  | answered hends hok =>
    rw [hends.newResponses_eq] at hr
    obtain rfl := List.mem_singleton.mp hr
    exact hok
  | waiting _ hwaits => simp [hwaits.newResponses_eq] at hr

/-- A response with another status than `OK` is a fault's, raised in the state the command began in. -/
theorem CommandOutcome.eq_raise_of_mem {i : Instr} {s t : State} (h : CommandOutcome i s t) {r : Response}
    (hr : r ∈ newResponses s t) (hfault : r.status ≠ .ok) : t = raise r.status s := by
  have of_raise (e : Status) (ht : t = raise e s) : t = raise r.status s := by
    rw [ht, newResponses_raise] at hr
    obtain rfl := List.mem_singleton.mp hr
    exact ht
  cases h with
  | errUnit _ ht => exact of_raise .errUnit ht
  | errDiv0 _ _ ht => exact of_raise .errDiv0 ht
  | served _ _ hserved => exact absurd (hserved.status_of_mem hr) hfault

/-- `ERR_UNIT` is answered only where the unit names no record. -/
theorem CommandOutcome.unitFault_of_mem {i : Instr} {s t : State} (h : CommandOutcome i s t)
    (hr : faultResponse .errUnit ∈ newResponses s t) : unitFault i s = true := by
  cases h with
  | errUnit hunit _ => exact hunit
  | errDiv0 _ _ ht =>
    rw [ht, newResponses_raise] at hr
    exact absurd (congrArg Response.status (List.mem_singleton.mp hr)) nofun
  | served _ _ hserved => exact absurd (hserved.status_of_mem hr) nofun

/-- A unit that names no record ends its command with `ERR_UNIT` and nothing else (R191). -/
theorem exec_of_unitFault {i : Instr} {s : State} (hunit : unitFault i s = true) :
    exec i s = .next (raise .errUnit s) := by
  obtain ⟨t, ht, outcome⟩ := exec_outcome i s
  cases outcome with
  | errUnit _ hraise => rw [ht, hraise]
  | errDiv0 hno _ _ | served hno _ _ => exact absurd (hunit.symm.trans hno) nofun

/-! ### The obligations -/

/-- Settles O44: forwards the command is raised at once; backwards no other outcome answers `ERR_UNIT`. -/
theorem unitOutOfRangeFaultsEveryCommandThatUsesIt :
    Obligations.UnitOutOfRangeFaultsEveryCommandThatUsesIt := by
  intro i s
  refine ⟨?_, fun hn u => ?_, fun hn u => ?_⟩
  · rw [← unitFault_eq_true_iff]
    constructor
    · exact fun hunit => ⟨_, exec_of_unitFault hunit, raise_endsWith .errUnit s⟩
    · rintro ⟨t, ht, hends⟩
      exact (CommandOutcome.of_exec ht).unitFault_of_mem (by simp [hends.newResponses_eq])
  · rw [hn]
    bv_omega
  · rw [hn]
    exact u.isLt

/-- Settles O45: `raise` is that next state. -/
theorem faultingCommandsHaveNoOtherEffect : Obligations.FaultingCommandsHaveNoOtherEffect :=
  fun _ _ _ _ h hr hfault => (CommandOutcome.of_exec h).eq_raise_of_mem hr hfault

/-- Settles O46: each outcome meets its own clause, and its causes exclude the others. -/
theorem everyCommandEndsAsTabled : Obligations.EveryCommandEndsAsTabled := by
  refine ⟨rfl, fun i s t h => ?_⟩
  cases CommandOutcome.of_exec h with
  | errUnit hunit ht =>
    exact ⟨fun _ => ht ▸ newResponses_raise .errUnit s, by simp [hunit], by simp [hunit]⟩
  | errDiv0 hunit hdiv ht =>
    exact ⟨by simp [hunit], fun _ _ => ht ▸ newResponses_raise .errDiv0 s, by simp [hdiv]⟩
  | served hunit hdiv hserved =>
    refine ⟨by simp [hunit], by simp [hdiv], fun _ _ => ?_⟩
    cases hserved with
    | answered hends hok => exact .inl ⟨_, hends.newResponses_eq, hok, hends.activity⟩
    | waiting hhang hwaits => exact .inr ⟨hhang, hwaits.newResponses_eq, _, _, hwaits.activity⟩

/-- Settles O9: every command has an effect, and so has every step that runs one. -/
theorem everyStepGoesOn : Obligations.EveryStepGoesOn :=
  ⟨fun i s => (exec_effect i s).imp fun _ => And.left, exists_step⟩

end Sys2Proof.Machine
end

section
/-! Hardware reset and the idle block (R210 to R212): what a step comes to under each form of the reset
signal, and that a reset inside a step abandons the command of that step. -/

namespace Sys2Proof.Machine

/-! ### The idle block (R212) -/

/-- With no word presented an idle sequencer waits (R212, log 10). -/
theorem advance_of_no_command {s : State} (ha : s.activity = .idle) (hc : s.commands = []) :
    advance s = .next s := by
  simp only [advance, takeCommand, ha, hc]

/-- Settles O8: the sequencer waits, and of the reset signal only the entry taken is gone. -/
theorem idleBlockWaitsForACommand : Obligations.IdleBlockWaitsForACommand := by
  intro s hlow ha hc
  have hstep : step s = .next (nextSignal s) := by
    simp only [step, hlow]
    exact advance_of_no_command ha hc
  exact ⟨hstep, fun hline => by rw [hstep, (resetLine_nil hline).2]⟩

/-! ### Hardware reset in the place of a step (R210) -/

/-- The registry of hardware reset: as many records as before, every one zero. -/
theorem map_zero_dev (s : State) :
    (s.dev.map fun _ => DeviceRecord.zero) = List.replicate s.nUnits DeviceRecord.zero :=
  List.map_const'

/-- Settles O11: the step is `hardReset`, which writes the registry, the activity, the latched status and
the count of draws alone. -/
theorem hardwareResetZeroesTheRegistry : Obligations.HardwareResetZeroesTheRegistry := by
  intro s hbefore
  have hstep : step s = .next (hardReset (nextSignal s)) := by simp only [step, hbefore]
  exact ⟨_, hstep, map_zero_dev s, rfl, rfl, rfl, rfl, rfl, rfl, rfl⟩

/-! ### Hardware reset inside a step (R211) -/

/-- A reset inside a step that would come to `t` leaves the first `n` of its calls, a zeroed registry and an
idle sequencer, and no response. -/
theorem step_of_reset_inside {s t : State} {n : Nat} (hin : s.resetSignal = .inside n)
    (hadv : advance (nextSignal s) = .next t) :
    ∃ t', step s = .next t' ∧ t'.trace = s.trace ++ (newEvents s t).take n ∧
      t'.responses = s.responses ∧ t'.dev = List.replicate s.nUnits DeviceRecord.zero ∧
      t'.activity = .idle ∧ t'.commands = t.commands ∧ t'.resetLine = s.resetLine.tail := by
  have hstep : step s = .next (abandonAfter n (nextSignal s) t) := by
    simp only [step, hin, hadv, mapNext]
  obtain ⟨htrace, hresp, hdev, hact, -, hcmds, hline⟩ := abandonAfter_fields n (nextSignal s) t
  exact ⟨_, hstep, htrace, hresp, hdev.trans (map_zero_dev s), hact, hcmds, hline⟩

/-- A command takes no further word from the command port. -/
theorem CommandEffect.commands_eq {s t : State} (h : CommandEffect s t) : t.commands = s.commands := by
  cases h with
  | ends h _ => exact h.commands
  | waits h _ => exact h.commands

/-- Settles O12: both clauses are `step_of_reset_inside`, the second at the step of an idle sequencer, which
runs the command the word decodes to. -/
theorem resetInsideACommandAbandonsIt : Obligations.ResetInsideACommandAbandonsIt := by
  refine ⟨fun _ _ _ => step_of_reset_inside, ?_⟩
  intro s w rest i n hin ha hc hd
  obtain ⟨t, ht, effect⟩ := exec_effect i { nextSignal s with commands := rest }
  have hadv : advance (nextSignal s) = .next t :=
    (advance_of_decode (s := nextSignal s) ha hc hd).trans ht
  obtain ⟨t', hstep, htrace, hresp, hdev, -, hcmds, -⟩ := step_of_reset_inside hin hadv
  exact ⟨t, t', ht, hstep, htrace, hresp, hdev, hcmds.trans effect.commands_eq⟩

end Sys2Proof.Machine
end
